-- ==== Sys2Proof/Word.lean ====
section
/-! DEFINITION. The word types of the S.Port frame decoder (spec 00_scope.md rule R10). -/

namespace Sys2Proof

/-- `u8`: an octet of the byte stream or of the packet buffer (R10, R18). -/
abbrev Byte := BitVec 8

/-- `u16`: a `dataTypeId` (R10, R71). -/
abbrev Half := BitVec 16

/-- The 32-bit vector of a frame's `value` field, read by the sink as a two's-complement `i32` (R10, R72). -/
abbrev Word := BitVec 32

/-- The 72-bit word of a completed frame, payload byte `i` in bits `[8i+7:8i]` (R69). -/
abbrev FrameWord := BitVec 72

end Sys2Proof
end

