-- ==== Sys2Proof/Syntax.lean ====
section
/-! DEFINITION. The syntax of the S.Port frame decoder: the three decoder states, the sixteen telemetry
kinds, and `Instr`, one constructor for each row of spec/opcode_table.json. The block fetches no program; its
"instructions" are the five transitions selected by `(st, in_data)`, the nineteen dispatcher outcomes selected by
a completed frame, and the two cycle-level operations (spec INDEX.md; 30_encoding.md rules R62, R73, R81). -/

namespace Sys2Proof

/-- The DecoderState `st` (10_state.md rule R16): three values, so that the reserved fourth code cannot be
written down. -/
inductive DecoderState where
  /-- No frame is in progress; the decoder waits for `START`. -/
  | idle
  /-- A frame is in progress; the next wire byte is `ESC` or a payload byte. -/
  | payload
  /-- A frame is in progress and the previous wire byte was `ESC`. -/
  | escape
  deriving DecidableEq, Repr

/-- The closed set of sixteen TelemetryKinds (30_encoding.md rules R74, R75), in table order. -/
inductive TelemetryKind where
  | fuel | gps | vbat | cellVoltage | current | heading | rssi | flymode
  | gpsState | altitude | galt | distance | gspeed | pitch | roll | vspeed
  deriving DecidableEq, Repr

/-- The three encoding formats of opcode_table.json (30_encoding.md rule R81). -/
inductive Format where
  /-- Ten bits, `{st, in_data}` (R61). -/
  | sel
  /-- Seventy-two bits, a completed frame (R69). -/
  | frame
  /-- Two bits, `{rst, in_valid}` (R81). -/
  | ctrl
  deriving DecidableEq, Repr

/-- One constructor per row of the opcode table. An operand of a constructor is every bit of the row's word that
its mask leaves open. -/
inductive Instr where
  /-- `IDLE_START` (40_frame_decoder.md rule R88). -/
  | idleStart
  /-- `PAY_ESC` (R90). -/
  | payEsc
  /-- `ESC_DATA` (R92): the wire byte, before the XOR. -/
  | escData (b : Byte)
  /-- `IDLE_SKIP` (R89): the discarded wire byte. -/
  | idleSkip (b : Byte)
  /-- `PAY_DATA` (R91): the wire byte. -/
  | payData (b : Byte)
  /-- `DISPATCH_FUEL` (41_sensor_dispatcher.md rule R105). -/
  | dispatchFuel (value : Word) (trailer : Byte)
  /-- `DISPATCH_GPS` (R106). -/
  | dispatchGps (value : Word) (trailer : Byte)
  /-- `DISPATCH_VBAT` (R107). -/
  | dispatchVbat (value : Word) (trailer : Byte)
  /-- `DISPATCH_CELL_VOLTAGE` (R108). -/
  | dispatchCellVoltage (value : Word) (trailer : Byte)
  /-- `DISPATCH_CURRENT` (R109). -/
  | dispatchCurrent (value : Word) (trailer : Byte)
  /-- `DISPATCH_HEADING` (R110). -/
  | dispatchHeading (value : Word) (trailer : Byte)
  /-- `DISPATCH_RSSI` (R111). -/
  | dispatchRssi (value : Word) (trailer : Byte)
  /-- `DISPATCH_FLYMODE` (R112). -/
  | dispatchFlymode (value : Word) (trailer : Byte)
  /-- `DISPATCH_GPS_STATE` (R113). -/
  | dispatchGpsState (value : Word) (trailer : Byte)
  /-- `DISPATCH_ALTITUDE` (R114). -/
  | dispatchAltitude (value : Word) (trailer : Byte)
  /-- `DISPATCH_GALT` (R115). -/
  | dispatchGalt (value : Word) (trailer : Byte)
  /-- `DISPATCH_DISTANCE` (R116). -/
  | dispatchDistance (value : Word) (trailer : Byte)
  /-- `DISPATCH_GSPEED` (R117). -/
  | dispatchGspeed (value : Word) (trailer : Byte)
  /-- `DISPATCH_PITCH` (R118). -/
  | dispatchPitch (value : Word) (trailer : Byte)
  /-- `DISPATCH_ROLL` (R119). -/
  | dispatchRoll (value : Word) (trailer : Byte)
  /-- `DISPATCH_VSPEED` (R120). -/
  | dispatchVspeed (value : Word) (trailer : Byte)
  /-- `DROP_UNKNOWN` (R123). -/
  | dropUnknown (dataTypeId : Half) (value : Word) (trailer : Byte)
  /-- `DROP_TYPE` (R122). -/
  | dropType (frameType : Byte) (dataTypeId : Half) (value : Word) (trailer : Byte)
  /-- `DROP_DEVICE` (R121). -/
  | dropDevice (deviceId frameType : Byte) (dataTypeId : Half) (value : Word) (trailer : Byte)
  /-- `RESET` (70_reset_and_hazards.md rule R151): its `in_valid` bit is open and ignored. -/
  | reset (inValid : Bool)
  /-- `HOLD` (40_frame_decoder.md rule R93). -/
  | hold
  deriving DecidableEq, Repr

/-- The dispatch instruction of a kind (30_encoding.md rule R73: the rows `DISPATCH_<KIND>`). -/
def Instr.dispatchOf (k : TelemetryKind) (value : Word) (trailer : Byte) : Instr :=
  match k with
  | .fuel => .dispatchFuel value trailer
  | .gps => .dispatchGps value trailer
  | .vbat => .dispatchVbat value trailer
  | .cellVoltage => .dispatchCellVoltage value trailer
  | .current => .dispatchCurrent value trailer
  | .heading => .dispatchHeading value trailer
  | .rssi => .dispatchRssi value trailer
  | .flymode => .dispatchFlymode value trailer
  | .gpsState => .dispatchGpsState value trailer
  | .altitude => .dispatchAltitude value trailer
  | .galt => .dispatchGalt value trailer
  | .distance => .dispatchDistance value trailer
  | .gspeed => .dispatchGspeed value trailer
  | .pitch => .dispatchPitch value trailer
  | .roll => .dispatchRoll value trailer
  | .vspeed => .dispatchVspeed value trailer

/-- The row of opcode_table.json an instruction belongs to, by its mnemonic there. -/
def Instr.mnemonic (i : Instr) : String :=
  match i with
  | .idleStart => "IDLE_START"
  | .payEsc => "PAY_ESC"
  | .escData _ => "ESC_DATA"
  | .idleSkip _ => "IDLE_SKIP"
  | .payData _ => "PAY_DATA"
  | .dispatchFuel _ _ => "DISPATCH_FUEL"
  | .dispatchGps _ _ => "DISPATCH_GPS"
  | .dispatchVbat _ _ => "DISPATCH_VBAT"
  | .dispatchCellVoltage _ _ => "DISPATCH_CELL_VOLTAGE"
  | .dispatchCurrent _ _ => "DISPATCH_CURRENT"
  | .dispatchHeading _ _ => "DISPATCH_HEADING"
  | .dispatchRssi _ _ => "DISPATCH_RSSI"
  | .dispatchFlymode _ _ => "DISPATCH_FLYMODE"
  | .dispatchGpsState _ _ => "DISPATCH_GPS_STATE"
  | .dispatchAltitude _ _ => "DISPATCH_ALTITUDE"
  | .dispatchGalt _ _ => "DISPATCH_GALT"
  | .dispatchDistance _ _ => "DISPATCH_DISTANCE"
  | .dispatchGspeed _ _ => "DISPATCH_GSPEED"
  | .dispatchPitch _ _ => "DISPATCH_PITCH"
  | .dispatchRoll _ _ => "DISPATCH_ROLL"
  | .dispatchVspeed _ _ => "DISPATCH_VSPEED"
  | .dropUnknown _ _ _ => "DROP_UNKNOWN"
  | .dropType _ _ _ _ => "DROP_TYPE"
  | .dropDevice _ _ _ _ _ => "DROP_DEVICE"
  | .reset _ => "RESET"
  | .hold => "HOLD"

end Sys2Proof
end

