-- ==== Sys2Proof/Machine/Constants.lean ====
section
/-! DEFINITION. The constants of 00_scope.md rule R8 and the numeric codes of rules R16 and R74. They are wired
constants of the block, not state (10_state.md rule R19). The spec asks for `SENSOR_TABLE` to stand once, as a
configuration value (92_eei_decisions.md D13); it stands here, in a file directly under Machine/, so that a
corrected literal changes this one table. -/

namespace Sys2Proof

/-- Frame start marker, recognised only in `Idle` (R8). -/
abbrev START : Byte := 0x7E#8

/-- Escape marker, recognised only in `Payload` (R8). -/
abbrev ESC : Byte := 0x7D#8

/-- The mask XORed onto the byte that follows `ESC` (R8). -/
abbrev ESC_XOR : Byte := 0x20#8

/-- The number of de-stuffed bytes in a frame; the capacity of the packet buffer (R8). -/
abbrev FRAME_LEN : Nat := 9

/-- The only accepted value of frame byte 0 (R8). -/
abbrev DEVICE_ID : Byte := 0x1B#8

/-- The only accepted value of frame byte 1 (R8). -/
abbrev FRAME_TYPE : Byte := 0x10#8

/-- The number of TelemetryKinds: 16, not the 15 of D0 §3 (R8, 90_conflicts.md C1). -/
abbrev N_KINDS : Nat := 16

/-- One row of the sensor table. -/
structure SensorRow where
  dataTypeId : Half
  kind : TelemetryKind
  deriving DecidableEq, Repr

/-- `SENSOR_TABLE` (30_encoding.md rule R75), row for row in the order of its column "code". UNVERIFIED: the spec says
its source's literals are unaudited (notes/assumptions/15.md). -/
def SENSOR_TABLE : List SensorRow :=
  [ ⟨0x0600#16, .fuel⟩, ⟨0x0800#16, .gps⟩, ⟨0x0210#16, .vbat⟩, ⟨0x0910#16, .cellVoltage⟩,
    ⟨0x0200#16, .current⟩, ⟨0x0840#16, .heading⟩, ⟨0xF101#16, .rssi⟩, ⟨0x0400#16, .flymode⟩,
    ⟨0x0410#16, .gpsState⟩, ⟨0x0100#16, .altitude⟩, ⟨0x0820#16, .galt⟩, ⟨0x0420#16, .distance⟩,
    ⟨0x0830#16, .gspeed⟩, ⟨0x0430#16, .pitch⟩, ⟨0x0440#16, .roll⟩, ⟨0x0110#16, .vspeed⟩ ]

/-- `Lookup(id)` (41_sensor_dispatcher.md rule R103): exact on all 16 bits, total over `u16`. -/
def lookup (id : Half) : Option TelemetryKind :=
  (SENSOR_TABLE.find? fun r => r.dataTypeId == id).map SensorRow.kind

/-- The `dataTypeId` of a kind, read from the same table (R75; `id_K` of rule R73). -/
def sensorId (k : TelemetryKind) : Half :=
  ((SENSOR_TABLE.find? fun r => r.kind == k).map SensorRow.dataTypeId).getD 0#16

/-- The 4-bit code of a kind on the port `evt_kind` (30_encoding.md rules R74, R75). -/
def TelemetryKind.code (k : TelemetryKind) : BitVec 4 :=
  match k with
  | .fuel => 0#4
  | .gps => 1#4
  | .vbat => 2#4
  | .cellVoltage => 3#4
  | .current => 4#4
  | .heading => 5#4
  | .rssi => 6#4
  | .flymode => 7#4
  | .gpsState => 8#4
  | .altitude => 9#4
  | .galt => 10#4
  | .distance => 11#4
  | .gspeed => 12#4
  | .pitch => 13#4
  | .roll => 14#4
  | .vspeed => 15#4

/-- The two register bits of `st` (10_state.md rules R16, R22). -/
def DecoderState.code (st : DecoderState) : BitVec 2 :=
  match st with
  | .idle => 0b00#2
  | .payload => 0b01#2
  | .escape => 0b10#2

/-- The decoder state of two register bits; `0b11` is reserved (30_encoding.md rule R77) and gives `none`. -/
def DecoderState.ofCode (c : BitVec 2) : Option DecoderState :=
  if c = 0b00#2 then some .idle
  else if c = 0b01#2 then some .payload
  else if c = 0b10#2 then some .escape
  else none

end Sys2Proof
end

