-- ==== Sys2Proof/Config.lean ====
section
/-! DEFINITION. What the spec leaves to an implementation. Of the parameters of 00_scope.md rule R9 only one is left
OPEN: `BUF_RESET`, the content of the packet buffer at the start of a run (92_eei_decisions.md D11). The constants
that the spec fixes (R8) stand in Machine/Constants.lean. -/

namespace Sys2Proof.Config

/-- `BUF_RESET`: the buffer content in `State.reset`. DESIGN CHOICE, unsafe (notes/assumptions/4.md): the spec leaves it
OPEN (D11, 10_state.md rule R35) and this model names nine zero bytes. No statement rests on it: every statement
about a run holds for every buffer content. -/
def BUF_RESET : Vector Byte FRAME_LEN := #v[0#8, 0#8, 0#8, 0#8, 0#8, 0#8, 0#8, 0#8, 0#8]

end Sys2Proof.Config
end

