-- ==== Sys2Proof/WellFormed.lean ====
section
/-! DEFINITION. Which terms of `Instr` are instructions of the block: the fall-back rows of the opcode table
(30_encoding.md rule R81) exclude the words that a row of lower priority number takes. -/

namespace Sys2Proof

/-- The check on an instruction's operands. `IDLE_SKIP` is "anything else" than `START` in `Idle` and `PAY_DATA`
"anything else" than `ESC` in `Payload` (R62); a drop names the first test that fails (41_sensor_dispatcher.md
rules R121 to R123). Every other row admits every operand. -/
def Instr.wellFormed (i : Instr) : Bool :=
  match i with
  | .idleStart => true
  | .payEsc => true
  | .escData _ => true
  | .idleSkip b => b != START
  | .payData b => b != ESC
  | .dispatchFuel _ _ => true
  | .dispatchGps _ _ => true
  | .dispatchVbat _ _ => true
  | .dispatchCellVoltage _ _ => true
  | .dispatchCurrent _ _ => true
  | .dispatchHeading _ _ => true
  | .dispatchRssi _ _ => true
  | .dispatchFlymode _ _ => true
  | .dispatchGpsState _ _ => true
  | .dispatchAltitude _ _ => true
  | .dispatchGalt _ _ => true
  | .dispatchDistance _ _ => true
  | .dispatchGspeed _ _ => true
  | .dispatchPitch _ _ => true
  | .dispatchRoll _ _ => true
  | .dispatchVspeed _ _ => true
  | .dropUnknown id _ _ => (lookup id).isNone
  | .dropType ty _ _ _ => ty != FRAME_TYPE
  | .dropDevice dev _ _ _ _ => dev != DEVICE_ID
  | .reset _ => true
  | .hold => true

/-- `i` is an instruction of the block. -/
abbrev Instr.WellFormed (i : Instr) : Prop := i.wellFormed = true

end Sys2Proof
end

