-- ==== Sys2Proof/Decode.lean ====
section
/-! DEFINITION. Decoding the three word formats of 30_encoding.md (`SEL`, `FRAME`, `CTRL`, rule R81), total on every
word and rejecting by name; the opcode table itself as match and mask rows; and the encoder, written from the same
encodings. -/

namespace Sys2Proof

/-- A word of one of the three formats (R81), at that format's width. -/
inductive InstrWord where
  /-- The selector word `sel[9:0] = {st[1:0], in_data[7:0]}` (R61). -/
  | sel (w : BitVec 10)
  /-- The frame word `frame[71:0]` (R69). -/
  | frame (w : FrameWord)
  /-- The control word `{rst, in_valid}`, `rst` in bit 1 (R81). -/
  | ctrl (w : BitVec 2)
  deriving DecidableEq, Repr

/-- Why a word is no instruction. -/
inductive DecodeReject where
  /-- `sel[9:8] = 0b11`: the reserved code of `st` (30_encoding.md rule R77). -/
  | reservedState
  /-- Control word `0x1`: a byte step, which a `SEL` row decodes (R81). -/
  | byteStep
  deriving DecidableEq, Repr

/-- The field `deviceId` of a frame word (30_encoding.md rule R70). -/
def FrameWord.deviceId (w : FrameWord) : Byte := w.extractLsb' 0 8

/-- The field `frameType` (R70). -/
def FrameWord.frameType (w : FrameWord) : Byte := w.extractLsb' 8 8

/-- The field `dataTypeId` (R70, R71). -/
def FrameWord.dataTypeId (w : FrameWord) : Half := w.extractLsb' 16 16

/-- The field `value` (R70, R72). -/
def FrameWord.value (w : FrameWord) : Word := w.extractLsb' 32 32

/-- The field `trailer` (R70). -/
def FrameWord.trailer (w : FrameWord) : Byte := w.extractLsb' 64 8

/-- The header word `hdr = frame[31:0]` (R73). -/
def FrameWord.header (w : FrameWord) : BitVec 32 := w.extractLsb' 0 32

/-- The header word that selects a kind: `{id_K, 0x10, 0x1B}` (R73). -/
def headerOf (k : TelemetryKind) : BitVec 32 := sensorId k ++ FRAME_TYPE ++ DEVICE_ID

/-- The selector word of a state and a wire byte (R61). -/
def selWord (st : DecoderState) (b : Byte) : BitVec 10 := st.code ++ b

/-- The frame word of five fields (R69, R70). -/
def frameWordOf (dev ty : Byte) (id : Half) (value : Word) (trailer : Byte) : FrameWord :=
  trailer ++ value ++ id ++ ty ++ dev

/-- The transition a selector word selects (R62; 40_frame_decoder.md rule R83). -/
def decodeSel (w : BitVec 10) : Except DecodeReject Instr :=
  match DecoderState.ofCode (w.extractLsb' 8 2) with
  | none => .error .reservedState
  | some .idle =>
    let b : Byte := w.extractLsb' 0 8
    .ok (if b = START then .idleStart else .idleSkip b)
  | some .payload =>
    let b : Byte := w.extractLsb' 0 8
    .ok (if b = ESC then .payEsc else .payData b)
  | some .escape => .ok (.escData (w.extractLsb' 0 8))

/-- The dispatcher operation a completed frame selects: the `FRAME` rows in the order of their priorities
(R73, R81). Every frame word selects one (R78). -/
def decodeFrame (w : FrameWord) : Instr :=
  if w.deviceId ≠ DEVICE_ID then
    .dropDevice w.deviceId w.frameType w.dataTypeId w.value w.trailer
  else if w.frameType ≠ FRAME_TYPE then
    .dropType w.frameType w.dataTypeId w.value w.trailer
  else
    match lookup w.dataTypeId with
    | none => .dropUnknown w.dataTypeId w.value w.trailer
    | some k => Instr.dispatchOf k w.value w.trailer

/-- The cycle-level operation a control word selects: `RESET` is match `0x2`, mask `0x2`; `HOLD` is match `0x0`,
mask `0x3` (R81). -/
def decodeCtrl (w : BitVec 2) : Except DecodeReject Instr :=
  if w.getLsbD 1 then .ok (.reset (w.getLsbD 0))
  else if w.getLsbD 0 then .error .byteStep
  else .ok .hold

/-- The decoder: total on every word of every format. -/
def decode (w : InstrWord) : Except DecodeReject Instr :=
  match w with
  | .sel w => decodeSel w
  | .frame w => .ok (decodeFrame w)
  | .ctrl w => decodeCtrl w

/-- The word of an instruction, from the encodings of R62, R73 and R81. -/
def encode (i : Instr) : InstrWord :=
  match i with
  | .idleStart => .sel (selWord .idle START)
  | .payEsc => .sel (selWord .payload ESC)
  | .escData b => .sel (selWord .escape b)
  | .idleSkip b => .sel (selWord .idle b)
  | .payData b => .sel (selWord .payload b)
  | .dispatchFuel v t => .frame (frameWordOf DEVICE_ID FRAME_TYPE (sensorId .fuel) v t)
  | .dispatchGps v t => .frame (frameWordOf DEVICE_ID FRAME_TYPE (sensorId .gps) v t)
  | .dispatchVbat v t => .frame (frameWordOf DEVICE_ID FRAME_TYPE (sensorId .vbat) v t)
  | .dispatchCellVoltage v t => .frame (frameWordOf DEVICE_ID FRAME_TYPE (sensorId .cellVoltage) v t)
  | .dispatchCurrent v t => .frame (frameWordOf DEVICE_ID FRAME_TYPE (sensorId .current) v t)
  | .dispatchHeading v t => .frame (frameWordOf DEVICE_ID FRAME_TYPE (sensorId .heading) v t)
  | .dispatchRssi v t => .frame (frameWordOf DEVICE_ID FRAME_TYPE (sensorId .rssi) v t)
  | .dispatchFlymode v t => .frame (frameWordOf DEVICE_ID FRAME_TYPE (sensorId .flymode) v t)
  | .dispatchGpsState v t => .frame (frameWordOf DEVICE_ID FRAME_TYPE (sensorId .gpsState) v t)
  | .dispatchAltitude v t => .frame (frameWordOf DEVICE_ID FRAME_TYPE (sensorId .altitude) v t)
  | .dispatchGalt v t => .frame (frameWordOf DEVICE_ID FRAME_TYPE (sensorId .galt) v t)
  | .dispatchDistance v t => .frame (frameWordOf DEVICE_ID FRAME_TYPE (sensorId .distance) v t)
  | .dispatchGspeed v t => .frame (frameWordOf DEVICE_ID FRAME_TYPE (sensorId .gspeed) v t)
  | .dispatchPitch v t => .frame (frameWordOf DEVICE_ID FRAME_TYPE (sensorId .pitch) v t)
  | .dispatchRoll v t => .frame (frameWordOf DEVICE_ID FRAME_TYPE (sensorId .roll) v t)
  | .dispatchVspeed v t => .frame (frameWordOf DEVICE_ID FRAME_TYPE (sensorId .vspeed) v t)
  | .dropUnknown id v t => .frame (frameWordOf DEVICE_ID FRAME_TYPE id v t)
  | .dropType ty id v t => .frame (frameWordOf DEVICE_ID ty id v t)
  | .dropDevice dev ty id v t => .frame (frameWordOf dev ty id v t)
  | .reset v => .ctrl (BitVec.ofBool true ++ BitVec.ofBool v)
  | .hold => .ctrl 0#2

/-! ## The opcode table as rows -/

/-- The format of a word. -/
def InstrWord.format (w : InstrWord) : Format :=
  match w with
  | .sel _ => .sel
  | .frame _ => .frame
  | .ctrl _ => .ctrl

/-- The bits of a word, zero above its format's width. -/
def InstrWord.bits (w : InstrWord) : BitVec 72 :=
  match w with
  | .sel w => w.setWidth 72
  | .frame w => w
  | .ctrl w => w.setWidth 72

/-- A row of opcode_table.json: `mnemonic`, `format`, `mask`, the table's `match` (here `pattern`) and `priority`. -/
structure OpcodeRow where
  mnemonic : String
  format : Format
  mask : BitVec 72
  pattern : BitVec 72
  priority : Nat
  deriving DecidableEq, Repr

/-- A word `w` matches a row of its format when `w & mask == match` (R81). -/
def OpcodeRow.accepts (r : OpcodeRow) (w : InstrWord) : Bool :=
  r.format == w.format && (w.bits &&& r.mask) == r.pattern

/-- The five `SEL` rows of opcode_table.json. -/
def selRows : List OpcodeRow :=
  [ ⟨"IDLE_START", .sel, 0x3FF#72, 0x07E#72, 0⟩,
    ⟨"PAY_ESC", .sel, 0x3FF#72, 0x17D#72, 0⟩,
    ⟨"ESC_DATA", .sel, 0x300#72, 0x200#72, 0⟩,
    ⟨"IDLE_SKIP", .sel, 0x300#72, 0x000#72, 1⟩,
    ⟨"PAY_DATA", .sel, 0x300#72, 0x100#72, 1⟩ ]

/-- The nineteen `FRAME` rows of opcode_table.json. -/
def frameRows : List OpcodeRow :=
  [ ⟨"DISPATCH_FUEL", .frame, 0x0000000000FFFFFFFF#72, 0x00000000000600101B#72, 0⟩,
    ⟨"DISPATCH_GPS", .frame, 0x0000000000FFFFFFFF#72, 0x00000000000800101B#72, 0⟩,
    ⟨"DISPATCH_VBAT", .frame, 0x0000000000FFFFFFFF#72, 0x00000000000210101B#72, 0⟩,
    ⟨"DISPATCH_CELL_VOLTAGE", .frame, 0x0000000000FFFFFFFF#72, 0x00000000000910101B#72, 0⟩,
    ⟨"DISPATCH_CURRENT", .frame, 0x0000000000FFFFFFFF#72, 0x00000000000200101B#72, 0⟩,
    ⟨"DISPATCH_HEADING", .frame, 0x0000000000FFFFFFFF#72, 0x00000000000840101B#72, 0⟩,
    ⟨"DISPATCH_RSSI", .frame, 0x0000000000FFFFFFFF#72, 0x0000000000F101101B#72, 0⟩,
    ⟨"DISPATCH_FLYMODE", .frame, 0x0000000000FFFFFFFF#72, 0x00000000000400101B#72, 0⟩,
    ⟨"DISPATCH_GPS_STATE", .frame, 0x0000000000FFFFFFFF#72, 0x00000000000410101B#72, 0⟩,
    ⟨"DISPATCH_ALTITUDE", .frame, 0x0000000000FFFFFFFF#72, 0x00000000000100101B#72, 0⟩,
    ⟨"DISPATCH_GALT", .frame, 0x0000000000FFFFFFFF#72, 0x00000000000820101B#72, 0⟩,
    ⟨"DISPATCH_DISTANCE", .frame, 0x0000000000FFFFFFFF#72, 0x00000000000420101B#72, 0⟩,
    ⟨"DISPATCH_GSPEED", .frame, 0x0000000000FFFFFFFF#72, 0x00000000000830101B#72, 0⟩,
    ⟨"DISPATCH_PITCH", .frame, 0x0000000000FFFFFFFF#72, 0x00000000000430101B#72, 0⟩,
    ⟨"DISPATCH_ROLL", .frame, 0x0000000000FFFFFFFF#72, 0x00000000000440101B#72, 0⟩,
    ⟨"DISPATCH_VSPEED", .frame, 0x0000000000FFFFFFFF#72, 0x00000000000110101B#72, 0⟩,
    ⟨"DROP_UNKNOWN", .frame, 0x00000000000000FFFF#72, 0x00000000000000101B#72, 1⟩,
    ⟨"DROP_TYPE", .frame, 0x0000000000000000FF#72, 0x00000000000000001B#72, 2⟩,
    ⟨"DROP_DEVICE", .frame, 0x000000000000000000#72, 0x000000000000000000#72, 3⟩ ]

/-- The two `CTRL` rows of opcode_table.json. -/
def ctrlRows : List OpcodeRow :=
  [ ⟨"RESET", .ctrl, 0x2#72, 0x2#72, 0⟩,
    ⟨"HOLD", .ctrl, 0x3#72, 0x0#72, 0⟩ ]

/-- The twenty-six rows of opcode_table.json. -/
def opcodeTable : List OpcodeRow := selRows ++ frameRows ++ ctrlRows

/-- A row of the disjoint form of the transition table (R62): a selector word `w` matches when
`w & mask == match`. -/
structure SelRow where
  mnemonic : String
  mask : BitVec 10
  pattern : BitVec 10
  deriving DecidableEq, Repr

/-- A selector word matches a row of the disjoint form (R62). -/
def SelRow.accepts (r : SelRow) (w : BitVec 10) : Bool := (w &&& r.mask) == r.pattern

/-- The nineteen pairwise disjoint rows of R62. -/
def disjointSelRows : List SelRow :=
  [ ⟨"IDLE_START", 0x3FF#10, 0x07E#10⟩,
    ⟨"IDLE_SKIP", 0x380#10, 0x080#10⟩,
    ⟨"IDLE_SKIP", 0x3C0#10, 0x000#10⟩,
    ⟨"IDLE_SKIP", 0x3E0#10, 0x040#10⟩,
    ⟨"IDLE_SKIP", 0x3F0#10, 0x060#10⟩,
    ⟨"IDLE_SKIP", 0x3F8#10, 0x070#10⟩,
    ⟨"IDLE_SKIP", 0x3FC#10, 0x078#10⟩,
    ⟨"IDLE_SKIP", 0x3FE#10, 0x07C#10⟩,
    ⟨"IDLE_SKIP", 0x3FF#10, 0x07F#10⟩,
    ⟨"PAY_ESC", 0x3FF#10, 0x17D#10⟩,
    ⟨"PAY_DATA", 0x380#10, 0x180#10⟩,
    ⟨"PAY_DATA", 0x3C0#10, 0x100#10⟩,
    ⟨"PAY_DATA", 0x3E0#10, 0x140#10⟩,
    ⟨"PAY_DATA", 0x3F0#10, 0x160#10⟩,
    ⟨"PAY_DATA", 0x3F8#10, 0x170#10⟩,
    ⟨"PAY_DATA", 0x3FC#10, 0x178#10⟩,
    ⟨"PAY_DATA", 0x3FF#10, 0x17C#10⟩,
    ⟨"PAY_DATA", 0x3FE#10, 0x17E#10⟩,
    ⟨"ESC_DATA", 0x300#10, 0x200#10⟩ ]

/-! ## The table's numbering of words -/

/-- The word of a row whose bits are `w`, the row's format told by its width in whole bytes: two bits are one byte,
ten bits are two bytes, seventy-two bits are nine (opcode_table.json's `width`; the exact widths are taken as well).
A bit above the format's width makes it no word of the format. DESIGN CHOICE (notes/assumptions/12.md). -/
def tableWord (nbits w : Nat) : Option InstrWord :=
  if nbits = 8 || nbits = 2 then
    if w < 4 then some (.ctrl (BitVec.ofNat 2 w)) else none
  else if nbits = 16 || nbits = 10 then
    if w < 1024 then some (.sel (BitVec.ofNat 10 w)) else none
  else if nbits = 72 then
    if w < 2 ^ 72 then some (.frame (BitVec.ofNat 72 w)) else none
  else none

/-- The instruction the decoder reads from an instruction whose bits are `w`, numbered as opcode_table.json numbers
them. -/
def decodeTableWord (nbits w : Nat) : Option Instr :=
  match tableWord nbits w with
  | none => none
  | some iw =>
    match decode iw with
    | .ok i => some i
    | .error _ => none

end Sys2Proof
end

