-- ==== Sys2Proof/Machine/State.lean ====
section
/-! DEFINITION. The state of the S.Port frame decoder as plain data: the three state elements the spec gives
(10_state.md rule R15), the two output ports as driven in the cycle just ended, and the environment's schedule of the
input ports. The last three fields are the model's own (notes/assumptions/1.md and 3.md). -/

namespace Sys2Proof.Machine

/-- The packet buffer: nine registers of eight bits, "the block's only general registers" (10_state.md rule R18;
notes/assumptions/14.md). -/
abbrev PacketBuffer := Vector Byte FRAME_LEN

/-- A TelemetryEvent, "`{kind: TelemetryKind, value: i32}`" (30_encoding.md rule R82). -/
structure TelemetryEvent where
  kind : TelemetryKind
  value : Word
  deriving DecidableEq, Repr

/-- The inputs sampled at one rising edge of `clk` (10_state.md rules R26, R27). -/
structure CycleInput where
  rst : Bool
  inValid : Bool
  inData : Byte
  deriving DecidableEq, Repr

/-- The output record of one step (40_frame_decoder.md rule R83): each part `none` or `some`. -/
structure Output where
  frame : Option PacketBuffer
  event : Option TelemetryEvent
  deriving DecidableEq, Repr

/-- The five output signals of one cycle (10_state.md rules R29 to R31). -/
structure Ports where
  frameValid : Bool
  frameData : FrameWord
  evtValid : Bool
  evtKind : BitVec 4
  evtValue : Word
  deriving DecidableEq, Repr

/-- Everything a step reads and writes. -/
structure State where
  /-- The DecoderState (10_state.md rule R16). -/
  st : DecoderState
  /-- The write cursor, an integer in `[0, 9]` (10_state.md rule R17). The reserved codes 10 to 15 of its four-bit
  register cannot be written down (30_encoding.md rule R77; notes/assumptions/5.md). -/
  cur : Fin (FRAME_LEN + 1)
  /-- The packet buffer (10_state.md rule R18). -/
  buf : PacketBuffer
  /-- The frame port in the cycle just ended: `some` exactly when `frame_valid` was 1 (10_state.md rules R29, R31). -/
  framePort : Option PacketBuffer
  /-- The event port in the cycle just ended: `some` exactly when `evt_valid` was 1 (10_state.md rules R30, R31). -/
  eventPort : Option TelemetryEvent
  /-- The environment's schedule: what it drives on `rst`, `in_valid` and `in_data` at the coming rising edges, the
  next first (10_state.md rules R26, R27). Past its end the environment drives nothing. -/
  inputs : List CycleInput
  deriving DecidableEq, Repr

/-- Faults: none. "The block raises no synchronous exception" and no byte makes it "fault, stop or refuse a byte"
(60_exceptions.md rule R131), so the type has no constructor and no step can end in a fault
(notes/assumptions/18.md). -/
inductive Fault where
  deriving DecidableEq, Repr

/-- The reasons for which a step has no meaning. -/
inductive Refusal where
  /-- Raised by an arm of `exec` that has no meaning yet; no arm is left so. Safe. -/
  | notModelled (mnemonic : String)
  /-- Raised by the operations `write` and `armEscape` when `cur = 9`: the write, now or after the escape, would address `buf[9]`. "The spec gives no transitions" to
  such a state, no state reachable from reset is one, and its treatment is "refuse" (30_encoding.md rule R77,
  93_implementation_defined.md U2; notes/assumptions/6.md and 19.md). Safe: no claim about a defined state passes through it. -/
  | cursorPastBuffer
  /-- Raised by a step whose word the decoder rejects. No state and input give such a word, since `st` has three values
  (10_state.md rule R34). Safe. -/
  | undecodable (r : DecodeReject)
  deriving DecidableEq, Repr

/-- The machine right after a reset edge (10_state.md rule R35; 70_reset_and_hazards.md rule R151): `st` is `Idle`, `cur`
is 0, every output is idle; `buf` holds `Config.BUF_RESET` (notes/assumptions/4.md), and nothing is scheduled. -/
def State.reset : State where
  st := .idle
  cur := 0
  buf := Config.BUF_RESET
  framePort := none
  eventPort := none
  inputs := []

/-- The output record of the cycle just ended. -/
def State.output (s : State) : Output := ⟨s.framePort, s.eventPort⟩

end Sys2Proof.Machine
end

