-- ==== Sys2Proof/Machine/Buffer.lean ====
section
/-! DEFINITION. The access primitives of the packet buffer (20_memory.md rules R43, R44) and the packing of the frame word
(30_encoding.md rule R69). -/

namespace Sys2Proof.Machine

/-- `MemWrite(a, 1, v)`: `buf[a] <- v` (20_memory.md rule R43). -/
def memWrite (b : PacketBuffer) (a : Nat) (v : Byte) (h : a < FRAME_LEN) : PacketBuffer := b.set a v h

/-- `MemRead(a, n)`, `a + n <= 9`: the lowest address in the least significant byte (20_memory.md rule R44). -/
def memRead (b : PacketBuffer) (a : Nat) : (n : Nat) → a + n ≤ FRAME_LEN → BitVec (8 * n)
  | 0, _ => 0#0
  | n + 1, h => memRead b (a + 1) n (by omega) ++ b[a]'(by omega)

/-- `Pack(buf)`, "that is `MemRead(0, 9)`" (30_encoding.md rule R69). -/
def pack (b : PacketBuffer) : FrameWord := memRead b 0 9 (by decide)

/-- The nine bytes of a frame word, byte `i` from bits `[8i+7:8i]` (R69). -/
def unpack (w : FrameWord) : PacketBuffer := Vector.ofFn fun i => w.extractLsb' (8 * i.val) 8

end Sys2Proof.Machine
end

