-- ==== Sys2Proof/Machine/Operands.lean ====
section
/-! DEFINITION. Every operand form: the operand of the writing transitions (30_encoding.md rule R68) and the five fields
of a completed frame (20_memory.md rule R49, 41_sensor_dispatcher.md rule R102). -/

namespace Sys2Proof.Machine

/-- The byte `ESC_DATA` writes: `in_data XOR 0x20` (R68). `PAY_DATA` writes `in_data` itself. -/
def unescape (b : Byte) : Byte := b ^^^ ESC_XOR

/-- `deviceId = MemRead(0,1)` (R102). -/
def deviceId (b : PacketBuffer) : Byte := memRead b 0 1 (by decide)

/-- `frameType = MemRead(1,1)` (R102). -/
def frameType (b : PacketBuffer) : Byte := memRead b 1 1 (by decide)

/-- `dataTypeId = MemRead(2,2)`, little-endian (R102, R71). -/
def dataTypeId (b : PacketBuffer) : Half := memRead b 2 2 (by decide)

/-- `value = MemRead(4,4)`, little-endian (R102, R72). -/
def value (b : PacketBuffer) : Word := memRead b 4 4 (by decide)

/-- `trailer = MemRead(8,1)` (R102): read by no operation but the frame port (R124). -/
def trailer (b : PacketBuffer) : Byte := memRead b 8 1 (by decide)

/-- `signed(v)`: the sink's reading of `evt_value` (00_scope.md rule R10; 92_eei_decisions.md D19;
notes/assumptions/17.md). -/
def signed (v : Word) : Int := v.toInt

end Sys2Proof.Machine
end

