-- ==== Sys2Proof/Machine/Flags.lean ====
section
/-! DEFINITION. The conditions the block computes. It has "no status flags, no condition codes and no sticky bits"
(10_state.md rule R24): no operation writes a flag. What it does compute are the class of a wire byte, the pending escape
(carried as `st = Escape`) and the completion condition. -/

namespace Sys2Proof.Machine

/-- The class of a wire byte (30_encoding.md rule R60). -/
inductive ByteClass where
  | start
  | esc
  | data
  deriving DecidableEq, Repr

/-- The class of a wire byte (R60); the state decides which classes are recognised (R63). -/
def byteClass (b : Byte) : ByteClass :=
  if b = START then .start else if b = ESC then .esc else .data

/-- "Escape pending": the one condition carried from a byte to the next, held as `st = Escape` (10_state.md rule R24). -/
def escapePending (s : State) : Bool := s.st == .escape

/-- The completion check `cur == 9`, made after every write (40_frame_decoder.md rule R86). -/
def frameFull (s : State) : Bool := s.cur.val == FRAME_LEN

/-- The combinational condition "this step completes" for an accepted byte (70_reset_and_hazards.md rule R171). -/
def completes (s : State) (b : Byte) : Bool :=
  s.st != .idle && s.cur.val == 8 && !(s.st == .payload && b == ESC)

/-- The byte an accepted byte writes, if it writes one (40_frame_decoder.md rule R94, column "write"). -/
def writtenByte (st : DecoderState) (b : Byte) : Option Byte :=
  match st with
  | .idle => none
  | .payload => if b = ESC then none else some b
  | .escape => some (unescape b)

end Sys2Proof.Machine
end

