-- ==== Sys2Proof/Machine/Ops.lean ====
section
/-! DEFINITION. The named operations the meanings share: driving the output ports, `Dispatch`, `Complete` and `Write`.
There is no operation for taking an exception or returning from one: the block "raises no synchronous exception" and has
no trap entry and no trap return (60_exceptions.md rules R131, R141, R142). -/

namespace Sys2Proof.Machine

/-- `out = (none, none)`: no output is driven in this cycle (10_state.md rule R31). -/
def State.driveNone (s : State) : State := { s with framePort := none, eventPort := none }

/-- `evt <- e`: the event port of this cycle (10_state.md rule R30). The frame port is left as it is driven. -/
def State.driveEvent (s : State) (e : Option TelemetryEvent) : State := { s with eventPort := e }

/-- `st <- S` with no write and no output (40_frame_decoder.md rules R88, R90). -/
def State.goto (s : State) (st : DecoderState) : State := { s.driveNone with st := st }

/-- `Dispatch(buf)` (41_sensor_dispatcher.md rule R104). The trailer is not examined (R124). -/
def dispatch (b : PacketBuffer) : Option TelemetryEvent :=
  if deviceId b ≠ DEVICE_ID then none
  else if frameType b ≠ FRAME_TYPE then none
  else
    match lookup (dataTypeId b) with
    | none => none
    | some k => some ⟨k, value b⟩

/-- `Complete(buf')` with the override `st' = Idle` (40_frame_decoder.md rules R86, R87): the whole frame on the frame port
and `Dispatch(buf')` on the event port, in this same step. The cursor stays 9. -/
def State.complete (s : State) : State :=
  { s with st := .idle, framePort := some s.buf, eventPort := dispatch s.buf }

/-- The first half of `Write(w)`: `buf[cur] <- w; cur <- cur + 1` (40_frame_decoder.md rule R86). -/
def State.store (s : State) (w : Byte) (h : s.cur.val < FRAME_LEN) : State :=
  { s with buf := memWrite s.buf s.cur.val w h, cur := ⟨s.cur.val + 1, by omega⟩ }

/-- `Write(w)` (40_frame_decoder.md rule R86): write, increment, compare, emit. Its precondition is `cur <= 8`; a state
that breaks it has no defined behaviour and is refused (30_encoding.md rule R77, 93_implementation_defined.md U2). -/
def State.write (s : State) (w : Byte) : Host.Outcome State Fault Refusal :=
  if h : s.cur.val < FRAME_LEN then
    if frameFull (s.store w h) then .next (s.store w h).complete
    else .next ((s.store w h).goto .payload)
  else .refused .cursorPastBuffer

/-- Arming an escape inside a frame: no write, no output (40_frame_decoder.md rule R90). Like a write it has `cur <= 8` as its
precondition (R90, R94); a state that breaks it has no defined behaviour and is refused (30_encoding.md rule R77,
93_implementation_defined.md U2; notes/assumptions/19.md). -/
def State.armEscape (s : State) : Host.Outcome State Fault Refusal :=
  if s.cur.val < FRAME_LEN then .next (s.goto .escape) else .refused .cursorPastBuffer

/-- The five output signals of an output record (40_frame_decoder.md rule R84): a data output is zero when its valid bit is
0 (10_state.md rule R31, 92_eei_decisions.md D8; notes/assumptions/16.md). -/
def Output.ports (o : Output) : Ports where
  frameValid := o.frame.isSome
  frameData := (o.frame.map pack).getD 0#72
  evtValid := o.event.isSome
  evtKind := (o.event.map fun e => e.kind.code).getD 0#4
  evtValue := (o.event.map TelemetryEvent.value).getD 0#32

end Sys2Proof.Machine
end

