-- ==== Sys2Proof/Machine/Control.lean ====
section
/-! DEFINITION. The reset cycle (70_reset_and_hazards.md rule R151). -/

namespace Sys2Proof.Machine

/-- `RESET` (R151): `st <- Idle; cur <- 0; buf unchanged; out = (none, none)`, whatever `in_valid` is: a byte offered in the
same cycle is not consumed and is lost (R167; notes/assumptions/10.md). -/
def execReset (_inValid : Bool) (s : State) : Host.Outcome State Fault Refusal :=
  .next { s.goto .idle with cur := 0 }

end Sys2Proof.Machine
end

