-- ==== Sys2Proof/Machine/FrameDecoder.lean ====
section
/-! DEFINITION. The Frame Decoder family (40_frame_decoder.md): the five transitions and `HOLD`. A transition is selected
by decoding `{st, in_data}` (R83), so a meaning does not test `st` again (notes/assumptions/9.md). -/

namespace Sys2Proof.Machine

/-- `IDLE_START` (R88): `cur <- 0; st <- Payload; buf unchanged; out = (none, none)`. -/
def execIdleStart (s : State) : Host.Outcome State Fault Refusal :=
  .next { s.goto .payload with cur := 0 }

/-- `IDLE_SKIP` (R89): `st`, `cur`, `buf` unchanged; `out = (none, none)`. The byte is discarded. -/
def execIdleSkip (_b : Byte) (s : State) : Host.Outcome State Fault Refusal :=
  .next s.driveNone

/-- `PAY_ESC` (R90): `st <- Escape; cur, buf unchanged; out = (none, none)`, at any `cur` from 0 to 8. -/
def execPayEsc (s : State) : Host.Outcome State Fault Refusal :=
  s.armEscape

/-- `PAY_DATA` (R91): `Write(in_data)`. -/
def execPayData (b : Byte) (s : State) : Host.Outcome State Fault Refusal :=
  s.write b

/-- `ESC_DATA` (R92): `Write(in_data XOR 0x20)`. -/
def execEscData (b : Byte) (s : State) : Host.Outcome State Fault Refusal :=
  s.write (unescape b)

/-- `HOLD` (R93): `st`, `cur`, `buf` unchanged; all outputs zero. -/
def execHold (s : State) : Host.Outcome State Fault Refusal :=
  .next s.driveNone

end Sys2Proof.Machine
end

