-- ==== Sys2Proof/Machine/SensorDispatcher.lean ====
section
/-! DEFINITION. The Sensor Dispatcher family (41_sensor_dispatcher.md): sixteen dispatch operations and three drops. The
family is combinational: an operation drives the event port of the cycle in which the frame completes and writes no
state element (R105 to R123); the frame port keeps what the completing write drives on it (notes/assumptions/9.md). -/

namespace Sys2Proof.Machine

/-- `DISPATCH_FUEL` (R105): `evt <- some(kind = FUEL, value)`; the trailer is ignored. -/
def execDispatchFuel (value : Word) (_trailer : Byte) (s : State) : Host.Outcome State Fault Refusal :=
  .next (s.driveEvent (some ⟨.fuel, value⟩))

/-- `DISPATCH_GPS` (R106): `evt <- some(kind = GPS, value)`; the trailer is ignored. -/
def execDispatchGps (value : Word) (_trailer : Byte) (s : State) : Host.Outcome State Fault Refusal :=
  .next (s.driveEvent (some ⟨.gps, value⟩))

/-- `DISPATCH_VBAT` (R107): `evt <- some(kind = VBAT, value)`; the trailer is ignored. -/
def execDispatchVbat (value : Word) (_trailer : Byte) (s : State) : Host.Outcome State Fault Refusal :=
  .next (s.driveEvent (some ⟨.vbat, value⟩))

/-- `DISPATCH_CELL_VOLTAGE` (R108): `evt <- some(kind = CELL_VOLTAGE, value)`; the trailer is ignored. -/
def execDispatchCellVoltage (value : Word) (_trailer : Byte) (s : State) : Host.Outcome State Fault Refusal :=
  .next (s.driveEvent (some ⟨.cellVoltage, value⟩))

/-- `DISPATCH_CURRENT` (R109): `evt <- some(kind = CURRENT, value)`; the trailer is ignored. -/
def execDispatchCurrent (value : Word) (_trailer : Byte) (s : State) : Host.Outcome State Fault Refusal :=
  .next (s.driveEvent (some ⟨.current, value⟩))

/-- `DISPATCH_HEADING` (R110): `evt <- some(kind = HEADING, value)`; the trailer is ignored. -/
def execDispatchHeading (value : Word) (_trailer : Byte) (s : State) : Host.Outcome State Fault Refusal :=
  .next (s.driveEvent (some ⟨.heading, value⟩))

/-- `DISPATCH_RSSI` (R111): `evt <- some(kind = RSSI, value)`; the trailer is ignored. -/
def execDispatchRssi (value : Word) (_trailer : Byte) (s : State) : Host.Outcome State Fault Refusal :=
  .next (s.driveEvent (some ⟨.rssi, value⟩))

/-- `DISPATCH_FLYMODE` (R112): `evt <- some(kind = FLYMODE, value)`; the trailer is ignored. -/
def execDispatchFlymode (value : Word) (_trailer : Byte) (s : State) : Host.Outcome State Fault Refusal :=
  .next (s.driveEvent (some ⟨.flymode, value⟩))

/-- `DISPATCH_GPS_STATE` (R113): `evt <- some(kind = GPS_STATE, value)`; the trailer is ignored. -/
def execDispatchGpsState (value : Word) (_trailer : Byte) (s : State) : Host.Outcome State Fault Refusal :=
  .next (s.driveEvent (some ⟨.gpsState, value⟩))

/-- `DISPATCH_ALTITUDE` (R114): `evt <- some(kind = ALTITUDE, value)`; the trailer is ignored. -/
def execDispatchAltitude (value : Word) (_trailer : Byte) (s : State) : Host.Outcome State Fault Refusal :=
  .next (s.driveEvent (some ⟨.altitude, value⟩))

/-- `DISPATCH_GALT` (R115): `evt <- some(kind = GALT, value)`; the trailer is ignored. -/
def execDispatchGalt (value : Word) (_trailer : Byte) (s : State) : Host.Outcome State Fault Refusal :=
  .next (s.driveEvent (some ⟨.galt, value⟩))

/-- `DISPATCH_DISTANCE` (R116): `evt <- some(kind = DISTANCE, value)`; the trailer is ignored. -/
def execDispatchDistance (value : Word) (_trailer : Byte) (s : State) : Host.Outcome State Fault Refusal :=
  .next (s.driveEvent (some ⟨.distance, value⟩))

/-- `DISPATCH_GSPEED` (R117): `evt <- some(kind = GSPEED, value)`; the trailer is ignored. -/
def execDispatchGspeed (value : Word) (_trailer : Byte) (s : State) : Host.Outcome State Fault Refusal :=
  .next (s.driveEvent (some ⟨.gspeed, value⟩))

/-- `DISPATCH_PITCH` (R118): `evt <- some(kind = PITCH, value)`; the trailer is ignored. -/
def execDispatchPitch (value : Word) (_trailer : Byte) (s : State) : Host.Outcome State Fault Refusal :=
  .next (s.driveEvent (some ⟨.pitch, value⟩))

/-- `DISPATCH_ROLL` (R119): `evt <- some(kind = ROLL, value)`; the trailer is ignored. -/
def execDispatchRoll (value : Word) (_trailer : Byte) (s : State) : Host.Outcome State Fault Refusal :=
  .next (s.driveEvent (some ⟨.roll, value⟩))

/-- `DISPATCH_VSPEED` (R120): `evt <- some(kind = VSPEED, value)`; the trailer is ignored. -/
def execDispatchVspeed (value : Word) (_trailer : Byte) (s : State) : Host.Outcome State Fault Refusal :=
  .next (s.driveEvent (some ⟨.vspeed, value⟩))

/-- `DROP_UNKNOWN` (R123): `evt <- none`; no operand is used. -/
def execDropUnknown (_id : Half) (_value : Word) (_trailer : Byte) (s : State) : Host.Outcome State Fault Refusal :=
  .next (s.driveEvent none)

/-- `DROP_TYPE` (R122): `evt <- none`; no operand is used. -/
def execDropType (_ty : Byte) (_id : Half) (_value : Word) (_trailer : Byte) (s : State) :
    Host.Outcome State Fault Refusal :=
  .next (s.driveEvent none)

/-- `DROP_DEVICE` (R121): `evt <- none`; no operand is used. -/
def execDropDevice (_dev _ty : Byte) (_id : Half) (_value : Word) (_trailer : Byte) (s : State) :
    Host.Outcome State Fault Refusal :=
  .next (s.driveEvent none)

end Sys2Proof.Machine
end

