-- ==== Sys2Proof/Machine/Dispatch.lean ====
section
/-! DEFINITION. The meaning of each instruction, one arm per constructor of Instr. -/

namespace Sys2Proof.Machine

def exec (i : Instr) (s : State) : Host.Outcome State Fault Refusal :=
  match i with
  -- 40_frame_decoder.md
  | .idleStart => Sys2Proof.Machine.execIdleStart s
  | .payEsc => Sys2Proof.Machine.execPayEsc s
  | .escData b => Sys2Proof.Machine.execEscData b s
  | .idleSkip b => Sys2Proof.Machine.execIdleSkip b s
  | .payData b => Sys2Proof.Machine.execPayData b s
  -- 41_sensor_dispatcher.md
  | .dispatchFuel v t => Sys2Proof.Machine.execDispatchFuel v t s
  | .dispatchGps v t => Sys2Proof.Machine.execDispatchGps v t s
  | .dispatchVbat v t => Sys2Proof.Machine.execDispatchVbat v t s
  | .dispatchCellVoltage v t => Sys2Proof.Machine.execDispatchCellVoltage v t s
  | .dispatchCurrent v t => Sys2Proof.Machine.execDispatchCurrent v t s
  | .dispatchHeading v t => Sys2Proof.Machine.execDispatchHeading v t s
  | .dispatchRssi v t => Sys2Proof.Machine.execDispatchRssi v t s
  | .dispatchFlymode v t => Sys2Proof.Machine.execDispatchFlymode v t s
  | .dispatchGpsState v t => Sys2Proof.Machine.execDispatchGpsState v t s
  | .dispatchAltitude v t => Sys2Proof.Machine.execDispatchAltitude v t s
  | .dispatchGalt v t => Sys2Proof.Machine.execDispatchGalt v t s
  | .dispatchDistance v t => Sys2Proof.Machine.execDispatchDistance v t s
  | .dispatchGspeed v t => Sys2Proof.Machine.execDispatchGspeed v t s
  | .dispatchPitch v t => Sys2Proof.Machine.execDispatchPitch v t s
  | .dispatchRoll v t => Sys2Proof.Machine.execDispatchRoll v t s
  | .dispatchVspeed v t => Sys2Proof.Machine.execDispatchVspeed v t s
  | .dropUnknown id v t => Sys2Proof.Machine.execDropUnknown id v t s
  | .dropType ty id v t => Sys2Proof.Machine.execDropType ty id v t s
  | .dropDevice dev ty id v t => Sys2Proof.Machine.execDropDevice dev ty id v t s
  -- 70_reset_and_hazards.md and 40_frame_decoder.md: the cycle-level operations
  | .reset v => Sys2Proof.Machine.execReset v s
  | .hold => Sys2Proof.Machine.execHold s

end Sys2Proof.Machine
end

