-- ==== Sys2Proof/Machine/Cycle.lean ====
section
/-! DEFINITION. The step functions: fetching the word a cycle selects, `StepByte` (40_frame_decoder.md rule R83),
`StepCycle` (R84), the stream-level `Run`, `Frames` and `Events` (R85), and the staging of a given word as the next one
the machine runs. -/

namespace Sys2Proof.Machine

/-! ## Fetching -/

/-- What the environment drives when nothing is scheduled: `rst = 0`, `in_valid = 0`. DESIGN CHOICE
(notes/assumptions/2.md). -/
def idleInput : CycleInput := ⟨false, false, 0#8⟩

/-- A cycle in which the transport presents an octet (10_state.md rule R27). -/
def byteInput (b : Byte) : CycleInput := ⟨false, true, b⟩

/-- The inputs of the coming rising edge. -/
def State.nextInput (s : State) : CycleInput := s.inputs.headD idleInput

/-- The schedule moves on by one cycle. -/
def State.advance (s : State) : State := { s with inputs := s.inputs.tail }

/-- The control word `{rst, in_valid}`, `rst` in bit 1 (30_encoding.md rule R81). -/
def ctrlWord (c : CycleInput) : BitVec 2 := BitVec.ofBool c.rst ++ BitVec.ofBool c.inValid

/-- The word a cycle selects: the selector word when a byte is accepted, else the control word (R81, R84). -/
def fetchWord (st : DecoderState) (c : CycleInput) : InstrWord :=
  if !c.rst && c.inValid then .sel (selWord st c.inData) else .ctrl (ctrlWord c)

/-! ## Steps -/

/-- Decode a word and run the instruction. -/
def runWord (w : InstrWord) (s : State) : Host.Outcome State Fault Refusal :=
  match decode w with
  | .ok i => exec i s
  | .error r => .refused (.undecodable r)

/-- `StepByte`: one call of `process(byte)` (R83). -/
def stepByte (s : State) (b : Byte) : Host.Outcome State Fault Refusal :=
  runWord (.sel (selWord s.st b)) s

/-- `StepCycle`: one rising edge of `clk` (R84). `rst` has priority over `in_valid`. -/
def stepCycle (s : State) (c : CycleInput) : Host.Outcome State Fault Refusal :=
  runWord (fetchWord s.st c) s

/-- One step of the machine: one rising edge with the inputs the environment has scheduled for it. -/
def stepScheduled (s : State) : Host.Outcome State Fault Refusal :=
  stepCycle s.advance s.nextInput

/-! ## Runs -/

/-- `Run(s, bs)`: the last state and the output records, one per byte (R85). -/
def runBytes (s : State) : List Byte → Host.Outcome (State × List Output) Fault Refusal
  | [] => .next (s, [])
  | b :: bs =>
    match stepByte s b with
    | .next t =>
      match runBytes t bs with
      | .next (u, outs) => .next (u, t.output :: outs)
      | .fault r => .fault r
      | .refused r => .refused r
    | .fault r => .fault r
    | .refused r => .refused r

/-- A cycle-level run: the last state and the output records, one per cycle (R84, R85). -/
def runCycles (s : State) : List CycleInput → Host.Outcome (State × List Output) Fault Refusal
  | [] => .next (s, [])
  | c :: cs =>
    match stepCycle s c with
    | .next t =>
      match runCycles t cs with
      | .next (u, outs) => .next (u, t.output :: outs)
      | .fault r => .fault r
      | .refused r => .refused r
    | .fault r => .fault r
    | .refused r => .refused r

/-- `Frames(s, bs)`: the completed frames of an output trace, in order (R85). -/
def frames (outs : List Output) : List PacketBuffer := outs.filterMap Output.frame

/-- `Events(s, bs)`: the events of an output trace, in order (R85). -/
def events (outs : List Output) : List TelemetryEvent := outs.filterMap Output.event

/-- The bytes a cycle-level input sequence presents in its cycles with `rst = 0` and `in_valid = 1` (R84). -/
def acceptedBytes (cs : List CycleInput) : List Byte :=
  cs.filterMap fun c => if !c.rst && c.inValid then some c.inData else none

/-- One line of a trace: "per step, the byte, the state before, the transition's mnemonic, the state after and the
outputs" (30_encoding.md rule R79). -/
structure TraceLine where
  byte : Byte
  before : DecoderState × Fin (FRAME_LEN + 1) × PacketBuffer
  mnemonic : String
  after : DecoderState × Fin (FRAME_LEN + 1) × PacketBuffer
  output : Output
  deriving DecidableEq, Repr

/-- The trace of a byte-level run, as far as it goes (R79). -/
def traceBytes (s : State) : List Byte → List TraceLine
  | [] => []
  | b :: bs =>
    match decode (.sel (selWord s.st b)) with
    | .error _ => []
    | .ok i =>
      match exec i s with
      | .next t => ⟨b, (s.st, s.cur, s.buf), i.mnemonic, (t.st, t.cur, t.buf), t.output⟩ :: traceBytes t bs
      | .fault _ => []
      | .refused _ => []

/-! ## Staging a word -/

/-- `s` with the schedule preceded by one cycle. -/
def State.schedule (s : State) (c : CycleInput) : State := { s with inputs := c :: s.inputs }

/-- Stage a control word: schedule a cycle with its `rst` and `in_valid`. -/
def State.stageCtrl (s : State) (w : BitVec 2) : State :=
  s.schedule ⟨w.getLsbD 1, w.getLsbD 0, 0#8⟩

/-- Stage a selector word: `st` as in `w[9:8]`, and a cycle that presents `w[7:0]`. A cursor that no state with that `st`
can have (10_state.md rule R33) is set to 0. The reserved code stages nothing. -/
def State.stageSel (s : State) (w : BitVec 10) : State :=
  match DecoderState.ofCode (w.extractLsb' 8 2) with
  | none => s
  | some .idle => { s with st := .idle }.schedule (byteInput (w.extractLsb' 0 8))
  | some st =>
    { s with st := st, cur := if s.cur.val = FRAME_LEN then 0 else s.cur }.schedule (byteInput (w.extractLsb' 0 8))

/-- Stage a frame word: the state one byte short of completing that frame, its first eight bytes in `buf`, and a cycle that
presents its trailer, through a pending escape where the trailer is `ESC` itself (a `FRAME` operation runs only in a
completing step, 41_sensor_dispatcher.md rule R101). -/
def State.stageFrame (s : State) (w : FrameWord) : State :=
  let buf := (unpack w).set 8 s.buf[8]
  if w.trailer = ESC then
    { s with st := .escape, cur := 8, buf := buf }.schedule (byteInput (unescape ESC))
  else
    { s with st := .payload, cur := 8, buf := buf }.schedule (byteInput w.trailer)

/-- Stage a word of the opcode table's numbering, so that the very next step runs it. -/
def State.stageTableWord (s : State) (nbits w : Nat) : State :=
  match tableWord nbits w with
  | none => s
  | some (.ctrl w) => s.stageCtrl w
  | some (.sel w) => s.stageSel w
  | some (.frame w) => s.stageFrame w

end Sys2Proof.Machine
end

