-- ==== Sys2Proof/Machine/Step.lean ====
section
/-! DEFINITION. The step function, and where it fetches its next instruction. -/

namespace Sys2Proof.Machine

/-- One step: one rising edge of `clk` (40_frame_decoder.md rule R84) with the inputs scheduled for it. -/
def step (s : State) : Host.Outcome State Fault Refusal := stepScheduled s

/-- `s` with the instruction whose bits are `w`, numbered as opcode_table.json numbers them, staged so that the very next
step runs it (notes/assumptions/8.md). A word of no format stages nothing. -/
def State.withFetchWord (s : State) (nbits w : Nat) : State := s.stageTableWord nbits w

end Sys2Proof.Machine
end

