-- ==== Sys2Proof/Machine/Stream.lean ====
section
/-! DEFINITION. Wire frames and the notation of streams: sender-side stuffing (30_encoding.md rule R67), the stream items of
rule R79 and the macros of rule R80. "The hardware knows nothing of them" (92_eei_decisions.md D15): they build inputs. -/

namespace Sys2Proof.Machine

/-- `S(v)`: `[0x7D, v XOR 0x20]` for the two control bytes, else `[v]` (R67). -/
def stuffByte (v : Byte) : List Byte :=
  if v = START ∨ v = ESC then [ESC, v ^^^ ESC_XOR] else [v]

/-- `Stuff(p) = [0x7E] ++ S(p[0]) ++ ... ++ S(p[8])` (R67). -/
def stuff (p : PacketBuffer) : List Byte := START :: p.toList.flatMap stuffByte

/-- The number of escaped payload bytes of a canonically stuffed frame: `e` of rule R65. -/
def escapedCount (p : PacketBuffer) : Nat := p.toList.countP fun v => v == START || v == ESC

/-- One payload byte as any sender may put it on the wire: itself, or `ESC` and one further byte (30_encoding.md rules R64,
R65; the decoder "does not require `B` to be `0x5E` or `0x5D`"). -/
inductive WireUnit where
  | plain (b : Byte)
  | escaped (b : Byte)
  deriving DecidableEq, Repr

/-- A plain payload byte is not `ESC`, which would be a prefix (R63). -/
def WireUnit.wellFormed (u : WireUnit) : Bool :=
  match u with
  | .plain b => b != ESC
  | .escaped _ => true

/-- The wire bytes of a payload byte (R65). -/
def WireUnit.wire (u : WireUnit) : List Byte :=
  match u with
  | .plain b => [b]
  | .escaped b => [ESC, b]

/-- The payload byte a unit stands for (R64, R68). -/
def WireUnit.payload (u : WireUnit) : Byte :=
  match u with
  | .plain b => b
  | .escaped b => unescape b

/-- The payload of `FRAME(dev, type, id, value, trailer)`, `value` taken modulo 2^32 (R80). -/
def framePayload (dev ty : Byte) (id : Half) (value : Int) (trailer : Byte) : PacketBuffer :=
  unpack (frameWordOf dev ty id (BitVec.ofInt 32 value) trailer)

/-- An item of a stream (R79), the macros of R80 among them. What the ignored input lines hold is a parameter
(notes/assumptions/11.md). -/
inductive StreamItem where
  /-- Two hexadecimal digits: that wire byte. -/
  | byte (b : Byte)
  | start
  | esc
  /-- `IDLE(n)`: `n` cycles with `in_valid = 0`, `in_data` being any value (93_implementation_defined.md U4). -/
  | idle (n : Nat) (inData : Byte)
  /-- One cycle with `rst = 1`, whatever the byte port carries (70_reset_and_hazards.md rule R151). -/
  | reset (inValid : Bool) (inData : Byte)
  | s (v : Byte)
  | raw9 (p : PacketBuffer)
  | frame (dev ty : Byte) (id : Half) (value : Int) (trailer : Byte)
  | sensor (id : Half) (value : Int)
  | noise (b : Byte) (n : Nat)
  deriving DecidableEq, Repr

/-- The check on an item: `NOISE(b, n)` has `b != 7E` (R80). -/
def StreamItem.wellFormed (i : StreamItem) : Bool :=
  match i with
  | .noise b _ => b != START
  | .byte _ => true
  | .start => true
  | .esc => true
  | .idle _ _ => true
  | .reset _ _ => true
  | .s _ => true
  | .raw9 _ => true
  | .frame _ _ _ _ _ => true
  | .sensor _ _ => true

/-- The cycles an item stands for (R79, R80). -/
def StreamItem.cycles (i : StreamItem) : List CycleInput :=
  match i with
  | .byte b => [byteInput b]
  | .start => [byteInput START]
  | .esc => [byteInput ESC]
  | .idle n x => List.replicate n ⟨false, false, x⟩
  | .reset v x => [⟨true, v, x⟩]
  | .s v => (stuffByte v).map byteInput
  | .raw9 p => (stuff p).map byteInput
  | .frame dev ty id v t => (stuff (framePayload dev ty id v t)).map byteInput
  | .sensor id v => (stuff (framePayload DEVICE_ID FRAME_TYPE id v 0#8)).map byteInput
  | .noise b n => List.replicate n (byteInput b)

/-- The cycles of a stream, left to right (R79). -/
def streamCycles (is : List StreamItem) : List CycleInput := is.flatMap StreamItem.cycles

end Sys2Proof.Machine
end

