-- ==== Sys2Proof/Safety.lean ====
section
/-! DEFINITION. What counts as a legal state and a safe run, in the terms the statements use. -/

namespace Sys2Proof.Machine

/-- The cursor invariant: `st != Idle` implies `cur <= 8` (10_state.md rule R33). A write performed from such a state is
inside the buffer. `cur <= 9` (R32) holds of every `State` by the type of `cur`. -/
abbrev State.CursorOk (s : State) : Prop := s.st ≠ .idle → s.cur.val ≤ 8

/-- The ports agree with the state they were driven from: without a frame there is no event (10_state.md rule R30), and a
frame on the port is the buffer just completed, with the event `Dispatch` gives it (40_frame_decoder.md rules R86, R87). -/
abbrev State.PortsOk (s : State) : Prop :=
  (s.framePort = none → s.eventPort = none) ∧
  (s.framePort ≠ none →
    s.framePort = some s.buf ∧ s.eventPort = dispatch s.buf ∧ s.st = .idle ∧ s.cur.val = FRAME_LEN)

/-- The invariant of every state reachable from reset (10_state.md rules R30, R33). -/
abbrev State.Inv (s : State) : Prop := s.CursorOk ∧ s.PortsOk

/-- `t` is `s` after `Write(w)` (40_frame_decoder.md rule R86): the byte at `cur` is `w` and the other eight are unchanged;
`cur` is one more; if it is 9 the frame completes (`st = Idle`, the whole buffer on the frame port, `Dispatch` of it on the
event port), else `st = Payload` and no output is driven. The schedule is untouched. -/
def Wrote (s t : State) (w : Byte) : Prop :=
  (∀ (k : Nat) (hk : k < FRAME_LEN), t.buf[k] = if k = s.cur.val then w else s.buf[k]) ∧
  t.cur.val = s.cur.val + 1 ∧
  t.inputs = s.inputs ∧
  (t.cur.val = 9 → t.st = .idle ∧ t.framePort = some t.buf ∧ t.eventPort = dispatch t.buf) ∧
  (t.cur.val ≠ 9 → t.st = .payload ∧ t.framePort = none ∧ t.eventPort = none)

/-- The outcome is a next state: no fault and no refusal (60_exceptions.md rule R131). -/
def IsNext {σ : Type} (o : Host.Outcome σ Fault Refusal) : Prop := ∃ t, o = .next t

/-- A run of any length neither faults nor refuses: "The core never raises a fatal condition and never terminates the
stream" (60_exceptions.md rule R131). -/
def SafeRun (s : State) : Prop := ∀ n, IsNext (Host.Core.run Sys2Proof.core n s)

end Sys2Proof.Machine
end

