-- ==== Sys2Proof/Certificates/Slice0/Obligations.lean ====
section
/-! DEFINITION. The statements about the S.Port frame decoder. Every statement about a run or a step holds for every content
of the packet buffer: none rests on `Config.BUF_RESET` (notes/assumptions/4.md). -/

open Sys2Proof Sys2Proof.Machine

/-! ## Encodings -/

/-- A few words written out from the spec's encodings decode to the instructions they stand for (30_encoding.md rules R61,
R69, R81; the frame words are rows K3, K17, K21 and K25 of 95_test_vectors.md). -/
def Obligations.KnownWordsDecode : Prop :=
  decode (.sel 0x07E#10) = .ok .idleStart ∧
  decode (.sel 0x055#10) = .ok (.idleSkip 0x55#8) ∧
  decode (.sel 0x17D#10) = .ok .payEsc ∧
  decode (.sel 0x17E#10) = .ok (.payData 0x7E#8) ∧
  decode (.sel 0x25E#10) = .ok (.escData 0x5E#8) ∧
  decode (.frame 0x00000001980210101B#72) = .ok (.dispatchVbat 0x198#32 0#8) ∧
  decode (.frame 0x00000001980211101B#72) = .ok (.dropUnknown 0x0211#16 0x198#32 0#8) ∧
  decode (.frame 0x07060504030201111B#72) = .ok (.dropType 0x11#8 0x0201#16 0x06050403#32 0x07#8) ∧
  decode (.frame 0x00000001980210101A#72) = .ok (.dropDevice 0x1A#8 0x10#8 0x0210#16 0x198#32 0#8) ∧
  decode (.ctrl 0b10#2) = .ok (.reset false) ∧
  decode (.ctrl 0b00#2) = .ok .hold

/-- Decoding the word of any well-formed instruction gives that instruction back: no operand bit is dropped. -/
def Obligations.DecodeInvertsEncode : Prop :=
  ∀ i : Instr, i.WellFormed → decode (encode i) = .ok i

/-- Whatever the decoder reads from a word is a well-formed instruction, and that word is its one encoding. -/
def Obligations.EncodeInvertsDecode : Prop :=
  ∀ (w : InstrWord) (i : Instr), decode w = .ok i → i.WellFormed ∧ encode i = w

/-- The decoder agrees with the match and mask rows of opcode_table.json on every word (R81): the decoded instruction's row
matches, every other row of the format that matches has a higher priority number, and a rejected word matches no row. -/
def Obligations.LowestPriorityRowIsDecoded : Prop :=
  (∀ (w : InstrWord) (i : Instr), decode w = .ok i →
    ∃ r ∈ opcodeTable, r.mnemonic = i.mnemonic ∧ r.accepts w = true ∧
      ∀ r' ∈ opcodeTable, r'.accepts w = true → r' = r ∨ r.priority < r'.priority) ∧
  (∀ (w : InstrWord) (e : DecodeReject), decode w = .error e → ∀ r ∈ opcodeTable, r.accepts w = false)

/-- The nineteen disjoint rows of R62: on every selector word whose state bits are not `0b11` exactly one row matches and it
names the decoded transition; on the others none matches. -/
def Obligations.DisjointRowsNameTheTransition : Prop :=
  ∀ w : BitVec 10,
    (disjointSelRows.filter fun r => r.accepts w).map SelRow.mnemonic =
      match decodeSel w with
      | .ok i => [i.mnemonic]
      | .error _ => []

/-- The only words that are no instruction: the selector words of the reserved state code (R77), and the control word that
hands the cycle to a `SEL` row (R81). -/
def Obligations.OnlyReservedWordsAreRejected : Prop :=
  ∀ (w : InstrWord) (e : DecodeReject), decode w = .error e ↔
    (e = .reservedState ∧ ∃ b : Byte, w = .sel (0b11#2 ++ b)) ∨ (e = .byteStep ∧ w = .ctrl 0b01#2)

/-- Totality (10_state.md rule R34): for each of the three states and each of the 256 bytes exactly one of the five
transitions of R62 applies, and it is the one whose row R62 prints; none is an error. -/
def Obligations.EveryStateAndByteHasOneTransition : Prop :=
  ∀ (st : DecoderState) (b : Byte),
    (decode (.sel (selWord st b)) = .ok .idleStart ↔ st = .idle ∧ b = 0x7E#8) ∧
    (decode (.sel (selWord st b)) = .ok (.idleSkip b) ↔ st = .idle ∧ b ≠ 0x7E#8) ∧
    (decode (.sel (selWord st b)) = .ok .payEsc ↔ st = .payload ∧ b = 0x7D#8) ∧
    (decode (.sel (selWord st b)) = .ok (.payData b) ↔ st = .payload ∧ b ≠ 0x7D#8) ∧
    (decode (.sel (selWord st b)) = .ok (.escData b) ↔ st = .escape) ∧
    (∃ i ∈ [Instr.idleStart, .idleSkip b, .payEsc, .payData b, .escData b],
      decode (.sel (selWord st b)) = .ok i ∧
      ∀ j ∈ [Instr.idleStart, .idleSkip b, .payEsc, .payData b, .escData b],
        decode (.sel (selWord st b)) = .ok j → j = i)

/-- The port codes of the kinds (R74, R75): the printed code of each, all sixteen codes used, each by one kind. -/
def Obligations.KindCodesAreTableOrder : Prop :=
  SENSOR_TABLE.map (fun r => r.kind.code) = [0#4, 1#4, 2#4, 3#4, 4#4, 5#4, 6#4, 7#4, 8#4, 9#4, 10#4, 11#4, 12#4, 13#4, 14#4, 15#4] ∧
  ∀ c : BitVec 4, ∃ k : TelemetryKind, k.code = c ∧ ∀ k' : TelemetryKind, k'.code = c → k' = k

/-! ## The step -/

/-- A step runs the decoded instruction. With a cycle scheduled, the word it selects is the selector word `{st, in_data}` when
`rst = 0` and `in_valid = 1`, else the control word `{rst, in_valid}`; the step is `exec` of the instruction that word decodes
to, at the state whose schedule has moved on by that cycle and which is otherwise unchanged. The schedule is the model's convention (notes/assumptions/1.md), and that with nothing scheduled
the step is `HOLD` is its choice (notes/assumptions/2.md). -/
def Obligations.StepRunsDecodedInstruction : Prop :=
  (∀ (s : State) (c : CycleInput) (cs : List CycleInput) (i : Instr), s.inputs = c :: cs →
    (c.rst = false → c.inValid = true → decode (.sel (selWord s.st c.inData)) = .ok i →
      step s = exec i { s with inputs := cs }) ∧
    (c.rst = true ∨ c.inValid = false → decode (.ctrl (ctrlWord c)) = .ok i →
      step s = exec i { s with inputs := cs })) ∧
  (∀ s : State, s.inputs = [] → step s = exec .hold s)

/-- The combinational half of a step: when an accepted byte completes a frame, the frame word on the port decodes to one of
the nineteen dispatcher operations, and running it on the state the step leaves, its event port cleared, gives that very
state. So a completing step runs the dispatcher operation the frame selects (R73, R87, R101). -/
def Obligations.CompletingStepRunsFrameInstruction : Prop :=
  ∀ (s t : State) (b : Byte) (f : PacketBuffer), stepByte s b = .next t → t.framePort = some f →
    ∃ i : Instr, decode (.frame (pack f)) = .ok i ∧ exec i { t with eventPort := none } = .next t

/-- Staging the word of a well-formed instruction makes the very next step run it, and consumes nothing else of the schedule
(the model's convention, notes/assumptions/8.md). For a transition or a cycle-level operation the step is `exec` of it; for a
dispatcher operation the step completes exactly that frame and its event is the one the operation drives. -/
def Obligations.StagedWordRunsNext : Prop :=
  ∀ (s : State) (i : Instr), i.WellFormed →
    match encode i with
    | .sel w => ∃ t : State, step (s.withFetchWord 16 w.toNat) = .next t ∧ t.inputs = s.inputs ∧
        exec i (s.withFetchWord 16 w.toNat).advance = .next t
    | .ctrl w => ∃ t : State, step (s.withFetchWord 8 w.toNat) = .next t ∧ t.inputs = s.inputs ∧
        exec i (s.withFetchWord 8 w.toNat).advance = .next t
    | .frame w => ∃ t : State, step (s.withFetchWord 72 w.toNat) = .next t ∧ t.inputs = s.inputs ∧
        t.framePort = some (unpack w) ∧ exec i { t with eventPort := none } = .next t

/-- `Host.Core.run` over a schedule is the cycle-level run of its cycles: it ends in the same state and leaves the rest of the
schedule. THE MODEL'S CONVENTION (notes/assumptions/1.md): the spec has input ports and no schedule, so that each step consumes
one entry and leaves the rest is the model's way of giving a step its inputs. -/
def Obligations.CoreRunFollowsSchedule : Prop :=
  ∀ (cs rest : List CycleInput) (s t : State) (outs : List Output), runCycles s cs = .next (t, outs) →
    Host.Core.run Sys2Proof.core cs.length { s with inputs := cs ++ rest } = .next { t with inputs := rest }

/-! ## The transitions -/

/-- `IDLE_START` (40_frame_decoder.md rule R88), whatever `cur` was: its effect and frame; its encoding; it is the only
transition that sets `cur` to 0 and the only way out of `Idle`; it can follow a completing step directly; `0x7E` in any other
state is not this transition. -/
def Obligations.IdleStartOpensFrame : Prop :=
  ∀ s : State,
    exec .idleStart s = .next { s with st := .payload, cur := 0, framePort := none, eventPort := none } ∧
    decode (.sel 0x07E#10) = .ok .idleStart ∧
    (s.st = .idle → stepByte s 0x7E#8 = exec .idleStart s) ∧
    (∀ (b : Byte) (t : State), stepByte s b = .next t → t.cur = 0 → s.cur ≠ 0 → s.st = .idle ∧ b = 0x7E#8) ∧
    (∀ (b : Byte) (t : State), s.st = .idle → stepByte s b = .next t → t.st ≠ .idle → b = 0x7E#8) ∧
    (∀ (b : Byte) (t : State), stepByte s b = .next t → t.framePort ≠ none →
      stepByte t 0x7E#8 = .next { t with st := .payload, cur := 0, framePort := none, eventPort := none }) ∧
    (s.st ≠ .idle → decode (.sel (selWord s.st 0x7E#8)) ≠ .ok .idleStart)

/-- `IDLE_SKIP` (R89): the byte leaves no trace, and any number of such bytes may precede a `START`. -/
def Obligations.IdleSkipLeavesNoTrace : Prop :=
  (∀ (s : State) (b : Byte),
    exec (.idleSkip b) s = .next { s with framePort := none, eventPort := none } ∧
    (s.st = .idle → b ≠ 0x7E#8 → stepByte s b = exec (.idleSkip b) s)) ∧
  (∀ (bs : List Byte) (s : State), s.st = .idle → (∀ b ∈ bs, b ≠ 0x7E#8) →
    ∃ t : State, runBytes s bs = .next (t, List.replicate bs.length ⟨none, none⟩) ∧
      t.st = .idle ∧ t.cur = s.cur ∧ t.buf = s.buf ∧ t.inputs = s.inputs)

/-- `PAY_ESC` (R90): its effect and frame; it writes nothing and can never complete a frame, at any `cur` from 0 to 8; at
`cur = 8` the escaped byte that follows is the ninth and completes it. -/
def Obligations.PayEscArmsEscape : Prop :=
  ∀ s : State,
    (s.cur.val ≤ 8 → exec .payEsc s = .next { s with st := .escape, framePort := none, eventPort := none }) ∧
    decode (.sel 0x17D#10) = .ok .payEsc ∧
    (s.st = .payload → stepByte s 0x7D#8 = exec .payEsc s) ∧
    (s.st = .payload → s.cur.val = 8 → ∀ b : Byte, ∃ t u : State, stepByte s 0x7D#8 = .next t ∧ t.cur = s.cur ∧
      t.framePort = none ∧ stepByte t b = .next u ∧ u.st = .idle ∧ u.framePort = some u.buf ∧ u.buf[8] = b ^^^ 0x20#8)

/-- `PAY_DATA` (R91): `Write(in_data)`, for every byte at every position; `0x7E` is stored as `0x7E` and does not restart the
frame. -/
def Obligations.PayDataWritesByte : Prop :=
  ∀ (s : State) (b : Byte),
    (s.cur.val ≤ 8 → ∃ t : State, exec (.payData b) s = .next t ∧ Wrote s t b) ∧
    (s.st = .payload → b ≠ 0x7D#8 → stepByte s b = exec (.payData b) s)

/-- `ESC_DATA` (R92): `Write(in_data XOR 0x20)`, for every byte; the state never stays `Escape`. -/
def Obligations.EscDataWritesXoredByte : Prop :=
  ∀ (s : State) (b : Byte),
    (s.cur.val ≤ 8 → ∃ t : State, exec (.escData b) s = .next t ∧ Wrote s t (b ^^^ 0x20#8) ∧ t.st ≠ .escape) ∧
    (s.st = .escape → stepByte s b = exec (.escData b) s)

/-- A byte that would be written past the buffer is refused by name, the byte that would arm its escape included: in a state with
`cur = 9` and `st` not `Idle`, to which the spec gives no transitions (R77, 93_implementation_defined.md U2), no byte is
accepted. That the model refuses there is its choice (notes/assumptions/6.md and 19.md). -/
def Obligations.WritePastBufferIsRefused : Prop :=
  ∀ (s : State) (b : Byte), s.cur.val = 9 →
    exec (.payData b) s = .refused .cursorPastBuffer ∧ exec (.escData b) s = .refused .cursorPastBuffer ∧
    exec .payEsc s = .refused .cursorPastBuffer ∧
    (s.st ≠ .idle → stepByte s b = .refused .cursorPastBuffer)

/-- `HOLD` (R93): nothing changes and no output is driven, in every state, for any number of cycles, whatever `in_data` is. -/
def Obligations.HoldKeepsEverything : Prop :=
  ∀ (s : State) (x : Byte),
    exec .hold s = .next { s with framePort := none, eventPort := none } ∧
    stepCycle s ⟨false, false, x⟩ = exec .hold s ∧
    ∀ n : Nat, ∃ t : State, runCycles s (List.replicate n ⟨false, false, x⟩) = .next (t, List.replicate n ⟨none, none⟩) ∧
      t.st = s.st ∧ t.cur = s.cur ∧ t.buf = s.buf ∧ t.inputs = s.inputs

/-- `RESET` (70_reset_and_hazards.md rule R151): `Idle`, cursor 0, buffer unchanged, no output, whatever `in_valid` and
`in_data` are; held for several cycles it repeats the same operation. -/
def Obligations.ResetReturnsToIdle : Prop :=
  ∀ (s : State) (v : Bool) (x : Byte),
    exec (.reset v) s = .next { s with st := .idle, cur := 0, framePort := none, eventPort := none } ∧
    stepCycle s ⟨true, v, x⟩ = exec (.reset v) s ∧
    ∀ n : Nat, runCycles s (List.replicate (n + 1) ⟨true, v, x⟩) =
      .next ({ s with st := .idle, cur := 0, framePort := none, eventPort := none }, List.replicate (n + 1) ⟨none, none⟩)

/-- `rst` beats `in_valid`, and `in_data` is ignored in a cycle in which no byte is accepted (R27, R84, R140). -/
def Obligations.ResetBeatsByteAndIdleDataIsIgnored : Prop :=
  ∀ (s : State) (v : Bool) (x y : Byte),
    stepCycle s ⟨true, v, x⟩ = stepCycle s ⟨true, false, y⟩ ∧
    stepCycle s ⟨false, false, x⟩ = stepCycle s ⟨false, false, y⟩ ∧
    stepCycle s ⟨false, true, x⟩ = stepByte s x

/-- What each instruction may write (R37): the schedule is never touched; only a writing transition changes the buffer, and
only at `cur`; only `IDLE_START`, the writing transitions and `RESET` change `cur`; only these and `PAY_ESC` change `st`; a
frame is put on the port only by a writing transition, and it is the whole buffer. -/
def Obligations.InstructionsWriteOnlyTheirOwn : Prop :=
  ∀ (i : Instr) (s t : State), exec i s = .next t →
    t.inputs = s.inputs ∧
    (t.buf ≠ s.buf → ∃ b : Byte, i = .payData b ∨ i = .escData b) ∧
    (∀ (k : Nat) (hk : k < FRAME_LEN), k ≠ s.cur.val → t.buf[k] = s.buf[k]) ∧
    (t.cur ≠ s.cur → i = .idleStart ∨ (∃ b : Byte, i = .payData b ∨ i = .escData b) ∨ ∃ v : Bool, i = .reset v) ∧
    (t.st ≠ s.st → i = .idleStart ∨ i = .payEsc ∨ (∃ b : Byte, i = .payData b ∨ i = .escData b) ∨ ∃ v : Bool, i = .reset v) ∧
    (t.framePort ≠ none → t.framePort ≠ s.framePort → t.framePort = some t.buf ∧ ∃ b : Byte, i = .payData b ∨ i = .escData b)

/-! ## The Sensor Dispatcher -/

/-- The first eight dispatch operations (R105 to R112): effect and frame of each, on every `value` and `trailer`; the header
word that selects it; its port code. -/
def Obligations.DispatchFuelToFlymode : Prop :=
  ∀ (s : State) (v : Word) (t : Byte),
    (exec (.dispatchFuel v t) s = .next { s with eventPort := some ⟨.fuel, v⟩ } ∧
      decode (.frame (t ++ v ++ 0x0600101B#32)) = .ok (.dispatchFuel v t) ∧ TelemetryKind.fuel.code = 0#4) ∧
    (exec (.dispatchGps v t) s = .next { s with eventPort := some ⟨.gps, v⟩ } ∧
      decode (.frame (t ++ v ++ 0x0800101B#32)) = .ok (.dispatchGps v t) ∧ TelemetryKind.gps.code = 1#4) ∧
    (exec (.dispatchVbat v t) s = .next { s with eventPort := some ⟨.vbat, v⟩ } ∧
      decode (.frame (t ++ v ++ 0x0210101B#32)) = .ok (.dispatchVbat v t) ∧ TelemetryKind.vbat.code = 2#4) ∧
    (exec (.dispatchCellVoltage v t) s = .next { s with eventPort := some ⟨.cellVoltage, v⟩ } ∧
      decode (.frame (t ++ v ++ 0x0910101B#32)) = .ok (.dispatchCellVoltage v t) ∧ TelemetryKind.cellVoltage.code = 3#4) ∧
    (exec (.dispatchCurrent v t) s = .next { s with eventPort := some ⟨.current, v⟩ } ∧
      decode (.frame (t ++ v ++ 0x0200101B#32)) = .ok (.dispatchCurrent v t) ∧ TelemetryKind.current.code = 4#4) ∧
    (exec (.dispatchHeading v t) s = .next { s with eventPort := some ⟨.heading, v⟩ } ∧
      decode (.frame (t ++ v ++ 0x0840101B#32)) = .ok (.dispatchHeading v t) ∧ TelemetryKind.heading.code = 5#4) ∧
    (exec (.dispatchRssi v t) s = .next { s with eventPort := some ⟨.rssi, v⟩ } ∧
      decode (.frame (t ++ v ++ 0xF101101B#32)) = .ok (.dispatchRssi v t) ∧ TelemetryKind.rssi.code = 6#4) ∧
    (exec (.dispatchFlymode v t) s = .next { s with eventPort := some ⟨.flymode, v⟩ } ∧
      decode (.frame (t ++ v ++ 0x0400101B#32)) = .ok (.dispatchFlymode v t) ∧ TelemetryKind.flymode.code = 7#4)

/-- The last eight dispatch operations (R113 to R120), likewise. -/
def Obligations.DispatchGpsStateToVspeed : Prop :=
  ∀ (s : State) (v : Word) (t : Byte),
    (exec (.dispatchGpsState v t) s = .next { s with eventPort := some ⟨.gpsState, v⟩ } ∧
      decode (.frame (t ++ v ++ 0x0410101B#32)) = .ok (.dispatchGpsState v t) ∧ TelemetryKind.gpsState.code = 8#4) ∧
    (exec (.dispatchAltitude v t) s = .next { s with eventPort := some ⟨.altitude, v⟩ } ∧
      decode (.frame (t ++ v ++ 0x0100101B#32)) = .ok (.dispatchAltitude v t) ∧ TelemetryKind.altitude.code = 9#4) ∧
    (exec (.dispatchGalt v t) s = .next { s with eventPort := some ⟨.galt, v⟩ } ∧
      decode (.frame (t ++ v ++ 0x0820101B#32)) = .ok (.dispatchGalt v t) ∧ TelemetryKind.galt.code = 10#4) ∧
    (exec (.dispatchDistance v t) s = .next { s with eventPort := some ⟨.distance, v⟩ } ∧
      decode (.frame (t ++ v ++ 0x0420101B#32)) = .ok (.dispatchDistance v t) ∧ TelemetryKind.distance.code = 11#4) ∧
    (exec (.dispatchGspeed v t) s = .next { s with eventPort := some ⟨.gspeed, v⟩ } ∧
      decode (.frame (t ++ v ++ 0x0830101B#32)) = .ok (.dispatchGspeed v t) ∧ TelemetryKind.gspeed.code = 12#4) ∧
    (exec (.dispatchPitch v t) s = .next { s with eventPort := some ⟨.pitch, v⟩ } ∧
      decode (.frame (t ++ v ++ 0x0430101B#32)) = .ok (.dispatchPitch v t) ∧ TelemetryKind.pitch.code = 13#4) ∧
    (exec (.dispatchRoll v t) s = .next { s with eventPort := some ⟨.roll, v⟩ } ∧
      decode (.frame (t ++ v ++ 0x0440101B#32)) = .ok (.dispatchRoll v t) ∧ TelemetryKind.roll.code = 14#4) ∧
    (exec (.dispatchVspeed v t) s = .next { s with eventPort := some ⟨.vspeed, v⟩ } ∧
      decode (.frame (t ++ v ++ 0x0110101B#32)) = .ok (.dispatchVspeed v t) ∧ TelemetryKind.vspeed.code = 15#4)

/-- The three drops (R121 to R123): effect and frame of each, on every operand, and the frame words that select it. -/
def Obligations.DropsDriveNoEvent : Prop :=
  ∀ (s : State) (dev ty : Byte) (id : Half) (v : Word) (t : Byte),
    (exec (.dropDevice dev ty id v t) s = .next { s with eventPort := none } ∧
      (dev ≠ 0x1B#8 → decode (.frame (t ++ v ++ id ++ ty ++ dev)) = .ok (.dropDevice dev ty id v t))) ∧
    (exec (.dropType ty id v t) s = .next { s with eventPort := none } ∧
      (ty ≠ 0x10#8 → decode (.frame (t ++ v ++ id ++ ty ++ 0x1B#8)) = .ok (.dropType ty id v t))) ∧
    (exec (.dropUnknown id v t) s = .next { s with eventPort := none } ∧
      (lookup id = none → decode (.frame (t ++ v ++ id ++ 0x101B#16)) = .ok (.dropUnknown id v t)))

/-- The acceptance filter on the wire (R128, R129, R133, R134). A step that completes (`st` not `Idle`, `cur = 8`, and the
byte no `ESC` in `Payload`) answers, and the whole buffer is on the frame port whatever it holds. Of any frame on the port:
it is the buffer; there is no event if its device, its type or its identifier is not accepted; with an accepted header and an
identifier of the table there is the event of its kind. -/
def Obligations.CompletedFrameIsFiltered : Prop :=
  (∀ (s : State) (b : Byte), completes s b = true → ∃ t : State, stepByte s b = .next t ∧ t.framePort = some t.buf) ∧
  ∀ (s t : State) (b : Byte) (f : PacketBuffer), stepByte s b = .next t → t.framePort = some f →
    completes s b = true ∧
    f = t.buf ∧
    (f[0] ≠ 0x1B#8 → t.eventPort = none) ∧
    (f[1] ≠ 0x10#8 → t.eventPort = none) ∧
    (lookup (f[3] ++ f[2]) = none → t.eventPort = none) ∧
    (∀ k : TelemetryKind, f[0] = 0x1B#8 → f[1] = 0x10#8 → lookup (f[3] ++ f[2]) = some k →
      t.eventPort = some ⟨k, f[7] ++ f[6] ++ f[5] ++ f[4]⟩)

/-- `Lookup` (R103): exactly the sixteen pairs of the sensor table, on all sixteen bits. -/
def Obligations.LookupIsTheSensorTable : Prop :=
  ∀ (id : Half) (k : TelemetryKind), lookup id = some k ↔ (id, k) ∈ [
    (0x0600#16, TelemetryKind.fuel), (0x0800#16, .gps), (0x0210#16, .vbat), (0x0910#16, .cellVoltage),
    (0x0200#16, .current), (0x0840#16, .heading), (0xF101#16, .rssi), (0x0400#16, .flymode),
    (0x0410#16, .gpsState), (0x0100#16, .altitude), (0x0820#16, .galt), (0x0420#16, .distance),
    (0x0830#16, .gspeed), (0x0430#16, .pitch), (0x0440#16, .roll), (0x0110#16, .vspeed)]

/-- `Dispatch` (R104): the three tests in their order, and the equivalent form on the frame word: the event is
`some({K, frame[63:32]})` exactly when `frame[31:0]` is `id_K << 16 | 0x0000101B`. -/
def Obligations.DispatchMatchesHeaderWord : Prop :=
  ∀ b : PacketBuffer,
    (b[0] ≠ 0x1B#8 → dispatch b = none) ∧
    (b[0] = 0x1B#8 → b[1] ≠ 0x10#8 → dispatch b = none) ∧
    (b[0] = 0x1B#8 → b[1] = 0x10#8 → lookup (b[3] ++ b[2]) = none → dispatch b = none) ∧
    (∀ k : TelemetryKind, b[0] = 0x1B#8 → b[1] = 0x10#8 → lookup (b[3] ++ b[2]) = some k →
      dispatch b = some ⟨k, b[7] ++ b[6] ++ b[5] ++ b[4]⟩) ∧
    (∀ e : TelemetryEvent, dispatch b = some e ↔
      (pack b).extractLsb' 0 32 = ((sensorId e.kind).setWidth 32 <<< 16) ||| 0x0000101B#32 ∧
      e.value = (pack b).extractLsb' 32 32)

/-- The trailer is not examined (R124). -/
def Obligations.TrailerIsNotExamined : Prop :=
  ∀ b b' : PacketBuffer, (∀ (k : Nat) (hk : k < FRAME_LEN), k ≠ 8 → b[k] = b'[k]) → dispatch b = dispatch b'

/-- The value is passed through (R125): it is `frame[63:32]` bit for bit, and neither kind nor value affects the other. -/
def Obligations.ValueIsPassedThrough : Prop :=
  ∀ (b : PacketBuffer) (e : TelemetryEvent), dispatch b = some e →
    e.value = (pack b).extractLsb' 32 32 ∧
    (∀ b' : PacketBuffer, (pack b').extractLsb' 0 32 = (pack b).extractLsb' 0 32 →
      ∃ e' : TelemetryEvent, dispatch b' = some e' ∧ e'.kind = e.kind) ∧
    (∀ (b' : PacketBuffer) (e' : TelemetryEvent), (pack b').extractLsb' 32 32 = (pack b).extractLsb' 32 32 →
      dispatch b' = some e' → e'.value = e.value)

/-! ## The ports -/

/-- The ports of a cycle (R29, R30, R31): `frame_valid` is 1 exactly when a byte is accepted and its write completes a frame,
and then `frame_data` is `Pack(buf')`, byte `i` in bits `[8i+7:8i]`; `evt_valid` is 1 exactly when also `Dispatch` is `some`,
with the kind's code and the value; every data output whose valid bit is 0 is zero; while `rst = 1` all five are zero. -/
def Obligations.PortsFollowCompletion : Prop :=
  ∀ (s t : State) (c : CycleInput), s.CursorOk → stepCycle s c = .next t →
    (t.output.ports.frameValid = true ↔
      c.rst = false ∧ c.inValid = true ∧ s.st ≠ .idle ∧ s.cur.val + 1 = 9 ∧ t.cur.val = 9 ∧ t.st = .idle) ∧
    (t.output.ports.frameValid = true → t.output.ports.frameData = pack t.buf ∧
      ∀ (i : Nat) (hi : i < FRAME_LEN), t.output.ports.frameData.extractLsb' (8 * i) 8 = t.buf[i]) ∧
    (t.output.ports.evtValid = true ↔ t.output.ports.frameValid = true ∧ dispatch t.buf ≠ none) ∧
    (∀ e : TelemetryEvent, dispatch t.buf = some e → t.output.ports.frameValid = true →
      t.output.ports.evtKind = e.kind.code ∧ t.output.ports.evtValue = e.value ∧
      t.output.ports.evtValue = t.output.ports.frameData.extractLsb' 32 32) ∧
    (t.output.ports.frameValid = false → t.output.ports.frameData = 0#72) ∧
    (t.output.ports.evtValid = false → t.output.ports.evtKind = 0#4 ∧ t.output.ports.evtValue = 0#32) ∧
    (c.rst = true → t.output.ports = ⟨false, 0#72, false, 0#4, 0#32⟩)

/-- The outputs as functions of the state before the edge and the byte (R28, R171): a step completes exactly when `st` is not
`Idle`, `cur = 8` and the byte is not an `ESC` in `Payload`; then only byte 8 of the frame comes from the completing byte, and
the event is already determined by the buffer before the step. -/
def Obligations.OutputsAreCombinational : Prop :=
  ∀ (s t : State) (b : Byte), stepByte s b = .next t →
    (completes s b = true → ∃ w : Byte, writtenByte s.st b = some w ∧ t.framePort = some (s.buf.set 8 w) ∧
      t.eventPort = dispatch s.buf) ∧
    (completes s b = false → t.framePort = none ∧ t.eventPort = none)

/-! ## Invariants and safety -/

/-- Reset gives `Idle`, cursor 0 and idle outputs (R35), and a state of the invariant. -/
def Obligations.ResetStateIsLegal : Prop :=
  State.reset.st = .idle ∧ State.reset.cur = 0 ∧ State.reset.framePort = none ∧ State.reset.eventPort = none ∧
  State.reset.Inv

/-- The cursor invariant of R33 alone, over one accepted byte: from a legal state, `st` not `Idle` implies `cur <= 8` again. -/
def Obligations.BytesKeepCursorInsideBuffer : Prop :=
  ∀ (s t : State) (b : Byte), s.CursorOk → stepByte s b = .next t → t.CursorOk

/-- Every step keeps the invariant: `st` not `Idle` implies `cur <= 8` (R33), no event without a frame (R30), and a frame on
the port is the buffer just completed, with the event `Dispatch` gives it (R86, R87). -/
def Obligations.StepKeepsInvariant : Prop :=
  ∀ s t : State, s.Inv → step s = .next t → t.Inv

/-- The step is total: from every legal state, whatever is scheduled, a step answers a next state, never a fault and never a
refusal (R131). -/
def Obligations.StepNeverStops : Prop :=
  ∀ s : State, s.CursorOk → ∃ t : State, step s = .next t

/-- A run of any length from any legal state, over any schedule, neither faults nor refuses (R131). -/
def Obligations.EveryRunIsSafe : Prop :=
  ∀ s : State, s.CursorOk → SafeRun s

/-- No halt (R137): from every legal state, fed any bytes, `Idle` is reached within 18 accepted bytes, within 17 from `Escape`.
-/
def Obligations.IdleIsReachedWithinEighteenBytes : Prop :=
  ∀ (s : State) (bs : List Byte), s.CursorOk →
    (bs.length = 18 → ∃ n ≤ 18, ∃ (t : State) (outs : List Output), runBytes s (bs.take n) = .next (t, outs) ∧ t.st = .idle) ∧
    (s.st = .escape → bs.length = 17 →
      ∃ n ≤ 17, ∃ (t : State) (outs : List Output), runBytes s (bs.take n) = .next (t, outs) ∧ t.st = .idle)

/-- No resynchronisation inside a frame (R99): from `Payload` or `Escape` no byte returns the decoder to `Idle` or lowers `cur`,
except by the ninth write. -/
def Obligations.NoResynchronisationInsideFrame : Prop :=
  ∀ (s t : State) (b : Byte), s.st ≠ .idle → stepByte s b = .next t →
    s.cur.val ≤ t.cur.val ∧ (t.st = .idle ↔ t.cur.val = 9 ∧ s.cur.val = 8 ∧ t.framePort = some t.buf)

/-! ## Runs -/

/-- A run over a concatenation is the run over the first part and then, from the state it left, over the second (R85). -/
def Obligations.RunOfAppend : Prop :=
  ∀ (s t u : State) (xs ys : List Byte) (o o' : List Output), runBytes s xs = .next (t, o) → runBytes t ys = .next (u, o') →
    runBytes s (xs ++ ys) = .next (u, o ++ o')

/-- Escape round trip (R97): from `Payload` with `cur <= 8`, `ESC` and `v XOR 0x20` leave `buf[cur] = v` and the cursor one
more, for every `v`. -/
def Obligations.EscapeRoundTrip : Prop :=
  ∀ (s : State) (v : Byte), s.st = .payload → (hc : s.cur.val ≤ 8) →
    ∃ (t : State) (outs : List Output), runBytes s [0x7D#8, v ^^^ 0x20#8] = .next (t, outs) ∧
      t.buf = s.buf.set s.cur.val v (Nat.lt_succ_of_le hc) ∧ t.cur.val = s.cur.val + 1

/-- Exact framing (R98): from `Idle`, `START` and any nine payload units, each a byte other than `ESC` or `ESC` and one further
byte, complete exactly one frame, in the last step and in no earlier one, and end in `(Idle, 9, the nine written bytes)`. -/
def Obligations.ExactFraming : Prop :=
  ∀ (s : State) (us : List WireUnit), s.st = .idle → us.length = 9 → (∀ u ∈ us, u.wellFormed = true) →
    ∃ t : State, t.st = .idle ∧ t.cur.val = 9 ∧ t.buf.toList = us.map WireUnit.payload ∧
      runBytes s (0x7E#8 :: us.flatMap WireUnit.wire) =
        .next (t, List.replicate (us.flatMap WireUnit.wire).length ⟨none, none⟩ ++ [⟨some t.buf, dispatch t.buf⟩])

/-- A canonically stuffed frame (R65 to R67): it begins with `START`, holds no `START` after it, and is `10 + e` bytes long, `e`
the number of escaped payload bytes, so 10 to 19 bytes. -/
def Obligations.StuffedFrameShape : Prop :=
  ∀ p : PacketBuffer,
    (∃ tail : List Byte, stuff p = 0x7E#8 :: tail ∧ ∀ b ∈ tail, b ≠ 0x7E#8) ∧
    (stuff p).length = 10 + escapedCount p ∧ 10 ≤ (stuff p).length ∧ (stuff p).length ≤ 19

/-- Decoding inverts stuffing, for whole streams (R100, R150, R166): from `Idle`, any sequence of canonically stuffed frames,
each after any noise without a `START`, gives exactly those frames in order and the events `Dispatch` gives them, and ends in
`Idle`. -/
def Obligations.StuffedStreamsAreReassembled : Prop :=
  ∀ (s : State) (items : List (List Byte × PacketBuffer)), s.st = .idle →
    (∀ item ∈ items, ∀ b ∈ item.1, b ≠ 0x7E#8) →
    ∃ (t : State) (outs : List Output),
      runBytes s (items.flatMap fun item => item.1 ++ stuff item.2) = .next (t, outs) ∧ t.st = .idle ∧
      frames outs = items.map Prod.snd ∧ events outs = (items.map Prod.snd).filterMap dispatch

/-- A doubled `START` costs a frame (R158): the second is payload byte 0, and after eight more writes the frame is dropped. -/
def Obligations.DoubledStartIsDropped : Prop :=
  ∀ (s : State) (x : List Byte), s.st = .idle → x.length = 8 → (∀ b ∈ x, b ≠ 0x7D#8) →
    ∃ (t : State) (outs : List Output), runBytes s (0x7E#8 :: 0x7E#8 :: x) = .next (t, outs) ∧
      t.st = .idle ∧ frames outs = [t.buf] ∧ t.buf.toList = 0x7E#8 :: x ∧ events outs = []

/-- A pending escape and a partial frame never expire (R159, R160): any number of cycles without a byte, in any state, changes
nothing of what the next byte does. -/
def Obligations.IdleCyclesNeverExpireAnything : Prop :=
  ∀ (s t : State) (n : Nat) (x b : Byte) (outs : List Output),
    runCycles s (List.replicate n ⟨false, false, x⟩ ++ [⟨false, true, b⟩]) = .next (t, outs) ↔
      stepByte s b = .next t ∧ outs = List.replicate n ⟨none, none⟩ ++ [t.output]

/-- The byte-level projection (R84): a cycle-level run without reset has the frames and events of the byte-level run over its
accepted bytes, and ends in the same `st`, `cur` and `buf`. -/
def Obligations.CyclesProjectToBytes : Prop :=
  ∀ (cs : List CycleInput) (s t : State) (outs : List Output), (∀ c ∈ cs, c.rst = false) →
    runCycles s cs = .next (t, outs) →
    ∃ (u : State) (outs' : List Output), runBytes s (acceptedBytes cs) = .next (u, outs') ∧
      u.st = t.st ∧ u.cur = t.cur ∧ u.buf = t.buf ∧ frames outs' = frames outs ∧ events outs' = events outs

/-- No output depends on the buffer's content or the cursor at the start of a run (R38, R25, 92_eei_decisions.md D11): from two
`Idle` states, whatever they hold, every schedule gives the same output trace. So the reset content the model names
(notes/assumptions/4.md) is unobservable. -/
def Obligations.OutputsIgnoreInitialBuffer : Prop :=
  ∀ (cs : List CycleInput) (s s' t t' : State) (outs outs' : List Output), s.st = .idle → s'.st = .idle →
    runCycles s cs = .next (t, outs) → runCycles s' cs = .next (t', outs') → outs = outs'

/-- A reset forgets the frame in progress (R152): after a reset cycle, two decoders in any states give the same outputs for
ever. -/
def Obligations.ResetForgetsThePast : Prop :=
  ∀ (s s' t t' : State) (c : CycleInput) (cs : List CycleInput) (outs outs' : List Output), c.rst = true →
    runCycles s (c :: cs) = .next (t, outs) → runCycles s' (c :: cs) = .next (t', outs') → outs = outs'

/-- Counting (R130): from `Idle`, a run over `n` bytes completes at most `n / 10` frames and gives at most one event per frame.
-/
def Obligations.EventsAreBoundedByBytes : Prop :=
  ∀ (s t : State) (bs : List Byte) (outs : List Output), s.st = .idle → runBytes s bs = .next (t, outs) →
    (events outs).length ≤ (frames outs).length ∧ (frames outs).length ≤ bs.length / 10
end

