-- ==== Sys2Proof/Laws/Buffer.lean ====
section
/-! SUPPORT. The laws of the packet buffer: read after write, the bits of `MemRead`, `Pack` and its inverse, and the five
fields of a frame as bytes of the buffer. -/

namespace Sys2Proof.Machine

/-! ### `MemWrite` -/

@[simp] theorem memWrite_same (b : PacketBuffer) (a : Nat) (v : Byte) (h : a < FRAME_LEN) :
    (memWrite b a v h)[a] = v := by
  simp [memWrite]

theorem memWrite_other (b : PacketBuffer) {a k : Nat} (v : Byte) (h : a < FRAME_LEN) (hk : k < FRAME_LEN)
    (ne : k ≠ a) : (memWrite b a v h)[k] = b[k] := by
  simp [memWrite, Vector.getElem_set_ne _ _ (Ne.symm ne)]

/-- Everything `MemWrite` does, at one address. -/
theorem memWrite_getElem (b : PacketBuffer) (a k : Nat) (v : Byte) (h : a < FRAME_LEN) (hk : k < FRAME_LEN) :
    (memWrite b a v h)[k] = if a = k then v else b[k] := by
  simp [memWrite, Vector.getElem_set]

/-! ### `MemRead` -/

/-- Bit `8i+j` of `MemRead(a, n)` is bit `j` of `buf[a+i]`: the lowest address is the least significant byte. -/
theorem memRead_getLsbD (b : PacketBuffer) :
    ∀ (n a : Nat) (h : a + n ≤ FRAME_LEN) (i j : Nat) (_ : i < n) (_ : j < 8),
      (memRead b a n h).getLsbD (8 * i + j) = (b[a + i]'(by omega)).getLsbD j
  | 0, _, _, _, _, hi, _ => by omega
  | n + 1, a, h, 0, j, _, hj => by simp [memRead, BitVec.getLsbD_append, hj]
  | n + 1, a, h, i + 1, j, hi, hj => by
    have ih := memRead_getLsbD b n (a + 1) (by omega) i j (by omega) hj
    have low : ¬ 8 * (i + 1) + j < 8 := by omega
    have shift : 8 * (i + 1) + j - 8 = 8 * i + j := by omega
    have address : a + (i + 1) = a + 1 + i := by omega
    simp only [memRead, BitVec.getLsbD_append, low, shift, ih, address, if_false]

/-- `MemRead(a, 1)` is the byte at `a`. -/
theorem memRead_one (b : PacketBuffer) (a : Nat) (h : a + 1 ≤ FRAME_LEN) :
    (memRead b a 1 h : Byte) = b[a]'(by omega) := by
  apply BitVec.eq_of_getLsbD_eq
  intro j hj
  have bit := memRead_getLsbD b 1 a h 0 j (by decide) hj
  simpa using bit

/-! ### `Pack` and `unpack` -/

/-- Byte `i` of a buffer stands in bits `[8i+7:8i]` of its frame word. -/
theorem pack_byte (b : PacketBuffer) {i : Nat} (hi : i < FRAME_LEN) : (pack b).extractLsb' (8 * i) 8 = b[i] := by
  ext j hj
  simp only [pack, ← BitVec.getLsbD_eq_getElem, BitVec.getLsbD_extractLsb', hj, decide_true, Bool.true_and]
  rw [memRead_getLsbD b 9 0 (by decide) i j hi hj]
  simp

@[simp] theorem unpack_getElem (w : FrameWord) {i : Nat} (hi : i < FRAME_LEN) :
    (unpack w)[i] = w.extractLsb' (8 * i) 8 := by
  simp [unpack]

@[simp] theorem unpack_pack (b : PacketBuffer) : unpack (pack b) = b := by
  ext i hi : 1
  rw [unpack_getElem, pack_byte b hi]

@[simp] theorem pack_unpack (w : FrameWord) : pack (unpack w) = w := by
  apply BitVec.eq_of_getLsbD_eq
  intro k hk
  have split : k = 8 * (k / 8) + k % 8 := by omega
  have bit := memRead_getLsbD (unpack w) 9 0 (by decide) (k / 8) (k % 8) (by omega) (by omega)
  rw [← split] at bit
  rw [pack, bit]
  simp only [Nat.zero_add, unpack_getElem, BitVec.getLsbD_extractLsb']
  rw [← split]
  simp
  omega

/-! ### The fields of a frame -/

theorem deviceId_eq (b : PacketBuffer) : deviceId b = b[0] := memRead_one b 0 (by decide)

theorem frameType_eq (b : PacketBuffer) : frameType b = b[1] := memRead_one b 1 (by decide)

theorem dataTypeId_eq (b : PacketBuffer) : dataTypeId b = b[3] ++ b[2] :=
  congrArg (fun hi : Byte => hi ++ b[2]) (memRead_one b 3 (by decide))

theorem value_eq (b : PacketBuffer) : value b = b[7] ++ b[6] ++ b[5] ++ b[4] :=
  congrArg (fun hi : Byte => hi ++ b[6] ++ b[5] ++ b[4]) (memRead_one b 7 (by decide))

theorem trailer_eq (b : PacketBuffer) : trailer b = b[8] := memRead_one b 8 (by decide)

end Sys2Proof.Machine
end

