-- ==== Sys2Proof/Laws/Decode.lean ====
section
/-! SUPPORT. The laws of the encodings: the fields of the selector word, of the frame word and of a packed buffer, and the
sensor table as a partial one-to-one map. -/

namespace Sys2Proof

/-! ### Slices of a concatenation -/

/-- A slice inside the low part. -/
theorem extract_low {m n : Nat} (hi : BitVec m) (lo : BitVec n) {i w : Nat} (h : i + w ≤ n) :
    (hi ++ lo).extractLsb' i w = lo.extractLsb' i w := by
  apply BitVec.eq_of_getLsbD_eq
  intro j hj
  have inside : i + j < n := by omega
  simp [BitVec.getLsbD_append, hj, inside]

/-- A slice inside the high part. -/
theorem extract_high {m n : Nat} (hi : BitVec m) (lo : BitVec n) {i w : Nat} (h : n ≤ i) :
    (hi ++ lo).extractLsb' i w = hi.extractLsb' (i - n) w := by
  apply BitVec.eq_of_getLsbD_eq
  intro j hj
  have outside : ¬ i + j < n := by omega
  have shift : i + j - n = i - n + j := by omega
  simp [BitVec.getLsbD_append, hj, outside, shift]

/-- Two adjacent slices. -/
theorem extract_append {n : Nat} (x : BitVec n) (i a b : Nat) :
    x.extractLsb' (i + b) a ++ x.extractLsb' i b = x.extractLsb' i (a + b) := by
  apply BitVec.eq_of_getLsbD_eq
  intro j hj
  simp only [BitVec.getLsbD_append, BitVec.getLsbD_extractLsb']
  by_cases low : j < b
  · simp [low, show j < a + b by omega]
  · simp [low, show j < a + b by omega, show j - b < a by omega, show i + b + (j - b) = i + j by omega]

/-! ### Selector words -/

@[simp] theorem DecoderState.ofCode_code (st : DecoderState) : DecoderState.ofCode st.code = some st := by
  cases st <;> decide

theorem DecoderState.code_of_ofCode {c : BitVec 2} {st : DecoderState} (h : DecoderState.ofCode c = some st) :
    st.code = c := by
  unfold DecoderState.ofCode at h
  split_ifs at h with h0 h1 h2 <;> cases h <;> simp_all [DecoderState.code]

@[simp] theorem selWord_state (st : DecoderState) (b : Byte) : (selWord st b).extractLsb' 8 2 = st.code :=
  (extract_high st.code b (by omega)).trans BitVec.extractLsb'_eq_self

@[simp] theorem selWord_byte (st : DecoderState) (b : Byte) : (selWord st b).extractLsb' 0 8 = b :=
  (extract_low st.code b (by omega)).trans BitVec.extractLsb'_eq_self

/-! ### The sensor table -/

@[simp] theorem lookup_sensorId (k : TelemetryKind) : lookup (sensorId k) = some k := by
  cases k <;> decide

theorem sensorId_of_lookup {id : Half} {k : TelemetryKind} (h : lookup id = some k) : sensorId k = id := by
  obtain ⟨r, found, rfl⟩ := Option.map_eq_some_iff.mp h
  have same : r.dataTypeId = id := by simpa using List.find?_some found
  have member : r ∈ SENSOR_TABLE := List.mem_of_find?_eq_some found
  have inverse : ∀ r ∈ SENSOR_TABLE, sensorId r.kind = r.dataTypeId := by decide
  exact (inverse r member).trans same

/-! ### Frame words -/

section
variable (dev ty : Byte) (id : Half) (v : Word) (t : Byte)

@[simp] theorem frameWordOf_deviceId : (frameWordOf dev ty id v t).deviceId = dev :=
  (extract_low (t ++ v ++ id ++ ty) dev (by omega)).trans BitVec.extractLsb'_eq_self

@[simp] theorem frameWordOf_frameType : (frameWordOf dev ty id v t).frameType = ty :=
  (extract_high (t ++ v ++ id ++ ty) dev (by omega)).trans <|
  (extract_low (t ++ v ++ id) ty (by omega)).trans BitVec.extractLsb'_eq_self

@[simp] theorem frameWordOf_dataTypeId : (frameWordOf dev ty id v t).dataTypeId = id :=
  (extract_high (t ++ v ++ id ++ ty) dev (by omega)).trans <|
  (extract_high (t ++ v ++ id) ty (by omega)).trans <|
  (extract_low (t ++ v) id (by omega)).trans BitVec.extractLsb'_eq_self

@[simp] theorem frameWordOf_value : (frameWordOf dev ty id v t).value = v :=
  (extract_high (t ++ v ++ id ++ ty) dev (by omega)).trans <|
  (extract_high (t ++ v ++ id) ty (by omega)).trans <|
  (extract_high (t ++ v) id (by omega)).trans <|
  (extract_low t v (by omega)).trans BitVec.extractLsb'_eq_self

@[simp] theorem frameWordOf_trailer : (frameWordOf dev ty id v t).trailer = t :=
  (extract_high (t ++ v ++ id ++ ty) dev (by omega)).trans <|
  (extract_high (t ++ v ++ id) ty (by omega)).trans <|
  (extract_high (t ++ v) id (by omega)).trans <|
  (extract_high t v (by omega)).trans BitVec.extractLsb'_eq_self

end

/-- A header word below a value and a trailer makes a frame word. -/
theorem append_header (dev ty : Byte) (id : Half) (v : Word) (t : Byte) :
    t ++ v ++ (id ++ ty ++ dev : BitVec 32) = frameWordOf dev ty id v t := by
  have inner := @BitVec.append_assoc _ _ _ (t ++ v) id ty
  have outer := @BitVec.append_assoc _ _ _ (t ++ v) (id ++ ty) dev
  rw [BitVec.cast_eq] at inner outer
  rw [← outer, ← inner]
  rfl

/-- The accepted device and type below an identifier, a value and a trailer make a frame word. -/
theorem append_accept (dev ty : Byte) (id : Half) (v : Word) (t : Byte) :
    t ++ v ++ id ++ (ty ++ dev : BitVec 16) = frameWordOf dev ty id v t := by
  have outer := @BitVec.append_assoc _ _ _ (t ++ v ++ id) ty dev
  rw [BitVec.cast_eq] at outer
  exact outer.symm

/-- A frame word is its five fields. -/
theorem frameWordOf_fields (w : FrameWord) :
    frameWordOf w.deviceId w.frameType w.dataTypeId w.value w.trailer = w := by
  have a := extract_append w 32 8 32
  have b := extract_append w 16 40 16
  have c := extract_append w 8 56 8
  have d := extract_append w 0 64 8
  rw [← a] at b
  rw [← b] at c
  rw [← c] at d
  exact d.trans BitVec.extractLsb'_eq_self

/-- The header word is the first three fields (30_encoding.md rule R73). -/
theorem header_eq (w : FrameWord) : w.header = w.dataTypeId ++ w.frameType ++ w.deviceId := by
  have a := extract_append w 8 16 8
  have b := extract_append w 0 24 8
  rw [← a] at b
  exact b.symm

/-! ### Masks -/

/-- Masking the low `n` bits of a word keeps its low slice. -/
theorem and_low_mask (w : BitVec 72) (n : Nat) :
    w &&& BitVec.ofNat 72 (2 ^ n - 1) = (w.extractLsb' 0 n).setWidth 72 := by
  apply BitVec.eq_of_getLsbD_eq
  intro i hi
  simp only [BitVec.getLsbD_and, BitVec.getLsbD_ofNat, Nat.testBit_two_pow_sub_one, BitVec.getLsbD_setWidth,
    BitVec.getLsbD_extractLsb', hi, decide_true, Bool.true_and, Nat.zero_add]
  exact Bool.and_comm _ _

theorem and_mask_header (w : FrameWord) : w &&& 0xFFFFFFFF#72 = w.header.setWidth 72 :=
  and_low_mask w 32

theorem and_mask_accept (w : FrameWord) : w &&& 0xFFFF#72 = (w.frameType ++ w.deviceId).setWidth 72 := by
  rw [show w.frameType ++ w.deviceId = w.extractLsb' 0 16 from extract_append w 0 8 8]
  exact and_low_mask w 16

theorem and_mask_device (w : FrameWord) : w &&& 0xFF#72 = w.deviceId.setWidth 72 :=
  and_low_mask w 8

/-! ### The fields of a packed buffer -/

namespace Machine

theorem pack_deviceId (b : PacketBuffer) : FrameWord.deviceId (pack b) = deviceId b := by
  rw [deviceId_eq]
  exact pack_byte b (i := 0) (by decide)

theorem pack_frameType (b : PacketBuffer) : FrameWord.frameType (pack b) = frameType b := by
  rw [frameType_eq]
  exact pack_byte b (i := 1) (by decide)

theorem pack_dataTypeId (b : PacketBuffer) : FrameWord.dataTypeId (pack b) = dataTypeId b := by
  rw [dataTypeId_eq, ← pack_byte b (i := 3) (by decide), ← pack_byte b (i := 2) (by decide)]
  exact (extract_append (pack b) 16 8 8).symm

theorem pack_value (b : PacketBuffer) : FrameWord.value (pack b) = value b := by
  rw [value_eq, ← pack_byte b (i := 7) (by decide), ← pack_byte b (i := 6) (by decide),
    ← pack_byte b (i := 5) (by decide), ← pack_byte b (i := 4) (by decide)]
  have a := extract_append (pack b) 48 8 8
  have c := extract_append (pack b) 40 16 8
  have d := extract_append (pack b) 32 24 8
  rw [← a] at c
  rw [← c] at d
  exact d.symm

theorem pack_trailer (b : PacketBuffer) : FrameWord.trailer (pack b) = trailer b := by
  rw [trailer_eq]
  exact pack_byte b (i := 8) (by decide)

end Machine

end Sys2Proof
end

