-- ==== Sys2Proof/Laws/State.lean ====
section
/-! SUPPORT. One lemma per field per state update, true by definition and tagged for simp, so that no later proof unfolds
a record update. -/

namespace Sys2Proof.Machine

/-! ### `driveNone` -/

@[simp] theorem State.driveNone_st (s : State) : s.driveNone.st = s.st := rfl
@[simp] theorem State.driveNone_cur (s : State) : s.driveNone.cur = s.cur := rfl
@[simp] theorem State.driveNone_buf (s : State) : s.driveNone.buf = s.buf := rfl
@[simp] theorem State.driveNone_framePort (s : State) : s.driveNone.framePort = none := rfl
@[simp] theorem State.driveNone_eventPort (s : State) : s.driveNone.eventPort = none := rfl
@[simp] theorem State.driveNone_inputs (s : State) : s.driveNone.inputs = s.inputs := rfl

/-! ### `driveEvent` -/

@[simp] theorem State.driveEvent_st (s : State) (e : Option TelemetryEvent) : (s.driveEvent e).st = s.st := rfl
@[simp] theorem State.driveEvent_cur (s : State) (e : Option TelemetryEvent) : (s.driveEvent e).cur = s.cur := rfl
@[simp] theorem State.driveEvent_buf (s : State) (e : Option TelemetryEvent) : (s.driveEvent e).buf = s.buf := rfl
@[simp] theorem State.driveEvent_framePort (s : State) (e : Option TelemetryEvent) : (s.driveEvent e).framePort = s.framePort := rfl
@[simp] theorem State.driveEvent_eventPort (s : State) (e : Option TelemetryEvent) : (s.driveEvent e).eventPort = e := rfl
@[simp] theorem State.driveEvent_inputs (s : State) (e : Option TelemetryEvent) : (s.driveEvent e).inputs = s.inputs := rfl

/-! ### `goto` -/

@[simp] theorem State.goto_st (s : State) (st : DecoderState) : (s.goto st).st = st := rfl
@[simp] theorem State.goto_cur (s : State) (st : DecoderState) : (s.goto st).cur = s.cur := rfl
@[simp] theorem State.goto_buf (s : State) (st : DecoderState) : (s.goto st).buf = s.buf := rfl
@[simp] theorem State.goto_framePort (s : State) (st : DecoderState) : (s.goto st).framePort = none := rfl
@[simp] theorem State.goto_eventPort (s : State) (st : DecoderState) : (s.goto st).eventPort = none := rfl
@[simp] theorem State.goto_inputs (s : State) (st : DecoderState) : (s.goto st).inputs = s.inputs := rfl

/-! ### `complete` -/

@[simp] theorem State.complete_st (s : State) : s.complete.st = .idle := rfl
@[simp] theorem State.complete_cur (s : State) : s.complete.cur = s.cur := rfl
@[simp] theorem State.complete_buf (s : State) : s.complete.buf = s.buf := rfl
@[simp] theorem State.complete_framePort (s : State) : s.complete.framePort = some s.buf := rfl
@[simp] theorem State.complete_eventPort (s : State) : s.complete.eventPort = dispatch s.buf := rfl
@[simp] theorem State.complete_inputs (s : State) : s.complete.inputs = s.inputs := rfl

/-! ### `store` -/

@[simp] theorem State.store_st (s : State) (w : Byte) (h : s.cur.val < FRAME_LEN) : (s.store w h).st = s.st := rfl
@[simp] theorem State.store_cur (s : State) (w : Byte) (h : s.cur.val < FRAME_LEN) : (s.store w h).cur = ⟨s.cur.val + 1, by omega⟩ := rfl
@[simp] theorem State.store_buf (s : State) (w : Byte) (h : s.cur.val < FRAME_LEN) : (s.store w h).buf = memWrite s.buf s.cur.val w h := rfl
@[simp] theorem State.store_framePort (s : State) (w : Byte) (h : s.cur.val < FRAME_LEN) : (s.store w h).framePort = s.framePort := rfl
@[simp] theorem State.store_eventPort (s : State) (w : Byte) (h : s.cur.val < FRAME_LEN) : (s.store w h).eventPort = s.eventPort := rfl
@[simp] theorem State.store_inputs (s : State) (w : Byte) (h : s.cur.val < FRAME_LEN) : (s.store w h).inputs = s.inputs := rfl

/-! ### `advance` -/

@[simp] theorem State.advance_st (s : State) : s.advance.st = s.st := rfl
@[simp] theorem State.advance_cur (s : State) : s.advance.cur = s.cur := rfl
@[simp] theorem State.advance_buf (s : State) : s.advance.buf = s.buf := rfl
@[simp] theorem State.advance_framePort (s : State) : s.advance.framePort = s.framePort := rfl
@[simp] theorem State.advance_eventPort (s : State) : s.advance.eventPort = s.eventPort := rfl
@[simp] theorem State.advance_inputs (s : State) : s.advance.inputs = s.inputs.tail := rfl

/-! ### `schedule` -/

@[simp] theorem State.schedule_st (s : State) (c : CycleInput) : (s.schedule c).st = s.st := rfl
@[simp] theorem State.schedule_cur (s : State) (c : CycleInput) : (s.schedule c).cur = s.cur := rfl
@[simp] theorem State.schedule_buf (s : State) (c : CycleInput) : (s.schedule c).buf = s.buf := rfl
@[simp] theorem State.schedule_framePort (s : State) (c : CycleInput) : (s.schedule c).framePort = s.framePort := rfl
@[simp] theorem State.schedule_eventPort (s : State) (c : CycleInput) : (s.schedule c).eventPort = s.eventPort := rfl
@[simp] theorem State.schedule_inputs (s : State) (c : CycleInput) : (s.schedule c).inputs = c :: s.inputs := rfl

/-! ### Outputs and the schedule -/

@[simp] theorem State.output_frame (s : State) : s.output.frame = s.framePort := rfl
@[simp] theorem State.output_event (s : State) : s.output.event = s.eventPort := rfl
@[simp] theorem State.driveNone_output (s : State) : s.driveNone.output = ⟨none, none⟩ := rfl
@[simp] theorem State.goto_output (s : State) (st : DecoderState) : (s.goto st).output = ⟨none, none⟩ := rfl
@[simp] theorem State.complete_output (s : State) : s.complete.output = ⟨some s.buf, dispatch s.buf⟩ := rfl
@[simp] theorem State.schedule_nextInput (s : State) (c : CycleInput) : (s.schedule c).nextInput = c := rfl
@[simp] theorem State.schedule_advance (s : State) (c : CycleInput) : (s.schedule c).advance = s := rfl

theorem State.nextInput_of_nil {s : State} (h : s.inputs = []) : s.nextInput = idleInput := by
  simp [State.nextInput, h]

theorem State.nextInput_of_cons {s : State} {c : CycleInput} {cs : List CycleInput} (h : s.inputs = c :: cs) :
    s.nextInput = c := by
  simp [State.nextInput, h]

end Sys2Proof.Machine
end

