-- ==== Sys2Proof/Laws/Ops.lean ====
section
/-! SUPPORT. For each shared operation, once, everything it can do: `Write`, `Dispatch`, fetching and the step functions.
Later proofs cite these lemmas instead of unfolding the operations. -/

namespace Sys2Proof.Machine

/-! ### `Write` -/

theorem lt_frameLen {n : Nat} (h : n ≤ 8) : n < FRAME_LEN := Nat.lt_succ_of_le h

/-- A write that does not fill the ninth byte. -/
theorem State.write_short {s : State} (w : Byte) (h : s.cur.val < 8) :
    s.write w = .next ((s.store w (lt_frameLen h.le)).goto .payload) := by
  have inside : s.cur.val < FRAME_LEN := lt_frameLen h.le
  have notFull : frameFull (s.store w inside) = false := by
    have ne : s.cur.val + 1 ≠ FRAME_LEN := fun eq => h.ne (Nat.succ.inj eq)
    simp [frameFull, ne]
  simp [State.write, inside, notFull]

/-- The write that fills the ninth byte. -/
theorem State.write_ninth {s : State} (w : Byte) (h : s.cur.val = 8) :
    s.write w = .next (s.store w (lt_frameLen h.le)).complete := by
  have inside : s.cur.val < FRAME_LEN := lt_frameLen h.le
  have full : frameFull (s.store w inside) = true := by
    simp [frameFull, h]
  simp [State.write, inside, full]

/-- A write past the buffer has no meaning. -/
theorem State.write_past {s : State} (w : Byte) (h : ¬ s.cur.val ≤ 8) : s.write w = .refused .cursorPastBuffer := by
  have outside : ¬ s.cur.val < FRAME_LEN := fun lt => h (Nat.le_of_lt_succ lt)
  simp [State.write, outside]

/-- Everything `Write(w)` can do when it answers a next state. -/
theorem State.write_cases {s t : State} {w : Byte} (h : s.write w = .next t) :
    (∃ lt : s.cur.val < 8, t = (s.store w (lt_frameLen lt.le)).goto .payload) ∨
    (∃ eq : s.cur.val = 8, t = (s.store w (lt_frameLen eq.le)).complete) := by
  rcases Nat.lt_trichotomy s.cur.val 8 with lt | eq | gt
  · rw [State.write_short w lt] at h
    exact .inl ⟨lt, by cases h; rfl⟩
  · rw [State.write_ninth w eq] at h
    exact .inr ⟨eq, by cases h; rfl⟩
  · rw [State.write_past w (Nat.not_le.mpr gt)] at h
    cases h

/-! ### Arming an escape -/

/-- An escape armed inside the buffer. -/
theorem State.armEscape_inside {s : State} (h : s.cur.val ≤ 8) : s.armEscape = .next (s.goto .escape) :=
  if_pos (lt_frameLen h)

/-- An escape past the buffer has no meaning. -/
theorem State.armEscape_past {s : State} (h : ¬ s.cur.val ≤ 8) : s.armEscape = .refused .cursorPastBuffer :=
  if_neg fun lt => h (Nat.le_of_lt_succ lt)

/-- Everything arming an escape can do when it answers a next state. -/
theorem State.armEscape_cases {s t : State} (h : s.armEscape = .next t) : s.cur.val ≤ 8 ∧ t = s.goto .escape := by
  by_cases inside : s.cur.val ≤ 8
  · rw [State.armEscape_inside inside] at h
    exact ⟨inside, by cases h; rfl⟩
  · rw [State.armEscape_past inside] at h
    cases h

/-! ### `Dispatch` -/

theorem dispatch_of_device {b : PacketBuffer} (h : b[0] ≠ DEVICE_ID) : dispatch b = none := by
  simp [dispatch, deviceId_eq, h]

theorem dispatch_of_type {b : PacketBuffer} (h : b[1] ≠ FRAME_TYPE) : dispatch b = none := by
  simp [dispatch, frameType_eq, h]

theorem dispatch_of_accepted {b : PacketBuffer} (hd : b[0] = DEVICE_ID) (ht : b[1] = FRAME_TYPE) :
    dispatch b = (lookup (dataTypeId b)).map fun k => ⟨k, value b⟩ := by
  unfold dispatch
  rw [deviceId_eq, frameType_eq, hd, ht]
  cases lookup (dataTypeId b) <;> simp

/-! ### Fetching and the step functions -/

theorem fetchWord_byte (st : DecoderState) (b : Byte) : fetchWord st (byteInput b) = .sel (selWord st b) := rfl

theorem runWord_of_decode {w : InstrWord} {i : Instr} (h : decode w = .ok i) (s : State) : runWord w s = exec i s := by
  simp [runWord, h]

/-- `StepByte`, transition by transition (40_frame_decoder.md rule R83). -/
theorem stepByte_eq (s : State) (b : Byte) :
    stepByte s b =
      match s.st with
      | .idle => if b = START then execIdleStart s else execIdleSkip b s
      | .payload => if b = ESC then execPayEsc s else execPayData b s
      | .escape => execEscData b s := by
  unfold stepByte runWord decode decodeSel
  simp only [selWord_state, selWord_byte, DecoderState.ofCode_code]
  cases s.st
  · by_cases h : b = START <;> simp [h, exec]
  · by_cases h : b = ESC <;> simp [h, exec]
  · simp [exec]

theorem decode_reset (v : Bool) : decode (.ctrl (BitVec.ofBool true ++ BitVec.ofBool v)) = .ok (.reset v) := by
  cases v <;> decide

theorem decode_hold : decode (.ctrl (BitVec.ofBool false ++ BitVec.ofBool false)) = .ok .hold := by
  decide

theorem stepCycle_reset (s : State) {c : CycleInput} (h : c.rst = true) : stepCycle s c = execReset c.inValid s := by
  have word : fetchWord s.st c = .ctrl (BitVec.ofBool true ++ BitVec.ofBool c.inValid) := by
    simp [fetchWord, ctrlWord, h]
  rw [stepCycle, word, runWord_of_decode (decode_reset c.inValid)]
  rfl

theorem stepCycle_hold (s : State) {c : CycleInput} (hr : c.rst = false) (hv : c.inValid = false) :
    stepCycle s c = execHold s := by
  have word : fetchWord s.st c = .ctrl (BitVec.ofBool false ++ BitVec.ofBool false) := by
    simp [fetchWord, ctrlWord, hr, hv]
  rw [stepCycle, word, runWord_of_decode decode_hold]
  rfl

theorem stepCycle_byte (s : State) {c : CycleInput} (hr : c.rst = false) (hv : c.inValid = true) :
    stepCycle s c = stepByte s c.inData := by
  simp [stepCycle, stepByte, fetchWord, hr, hv]

theorem step_eq (s : State) : step s = stepCycle s.advance s.nextInput := rfl

/-- Everything an accepted byte can do when it answers a next state (40_frame_decoder.md rule R94, row by row). -/
theorem stepByte_cases {s t : State} {b : Byte} (h : stepByte s b = .next t) :
    (s.st = .idle ∧ b = START ∧ t = { s.goto .payload with cur := 0 }) ∨
    (s.st = .idle ∧ b ≠ START ∧ t = s.driveNone) ∨
    (s.st = .payload ∧ b = ESC ∧ s.cur.val ≤ 8 ∧ t = s.goto .escape) ∨
    (s.st = .payload ∧ b ≠ ESC ∧ s.write b = .next t) ∨
    (s.st = .escape ∧ s.write (unescape b) = .next t) := by
  rw [stepByte_eq] at h
  cases hs : s.st <;> simp only [hs] at h
  · split_ifs at h with hb
    · exact .inl ⟨rfl, hb, by cases h; rfl⟩
    · exact .inr (.inl ⟨rfl, hb, by cases h; rfl⟩)
  · split_ifs at h with hb
    · exact .inr (.inr (.inl ⟨rfl, hb, State.armEscape_cases h⟩))
    · exact .inr (.inr (.inr (.inl ⟨rfl, hb, h⟩)))
  · exact .inr (.inr (.inr (.inr ⟨rfl, h⟩)))

/-- Everything a completing byte does: it makes the ninth write (70_reset_and_hazards.md rule R171). -/
theorem stepByte_completes {s : State} {b : Byte} (h : completes s b = true) :
    ∃ (w : Byte) (eq : s.cur.val = 8), writtenByte s.st b = some w ∧
      stepByte s b = .next (s.store w (lt_frameLen eq.le)).complete := by
  simp only [completes, Bool.and_eq_true, bne_iff_ne, ne_eq, beq_iff_eq, Bool.not_eq_true'] at h
  obtain ⟨⟨inFrame, last⟩, notPrefix⟩ := h
  rw [stepByte_eq]
  cases hs : s.st
  · exact absurd hs inFrame
  · have plain : b ≠ ESC := by simpa [hs] using notPrefix
    exact ⟨b, last, by simp [writtenByte, plain], by simp only [plain, if_false]; exact State.write_ninth b last⟩
  · exact ⟨unescape b, last, rfl, State.write_ninth (unescape b) last⟩

/-- Everything a cycle can do when it answers a next state. -/
theorem stepCycle_cases {s t : State} {c : CycleInput} (h : stepCycle s c = .next t) :
    (c.rst = true ∧ t = { s.goto .idle with cur := 0 }) ∨
    (c.rst = false ∧ c.inValid = false ∧ t = s.driveNone) ∨
    (c.rst = false ∧ c.inValid = true ∧ stepByte s c.inData = .next t) := by
  cases hr : c.rst
  · cases hv : c.inValid
    · rw [stepCycle_hold s hr hv] at h
      exact .inr (.inl ⟨rfl, rfl, by cases h; rfl⟩)
    · rw [stepCycle_byte s hr hv] at h
      exact .inr (.inr ⟨rfl, rfl, h⟩)
  · rw [stepCycle_reset s hr] at h
    exact .inl ⟨rfl, by cases h; rfl⟩

/-! ### Runs -/

theorem runBytes_cons {s t u : State} {b : Byte} {bs : List Byte} {outs : List Output} (h : stepByte s b = .next t)
    (hr : runBytes t bs = .next (u, outs)) : runBytes s (b :: bs) = .next (u, t.output :: outs) := by
  simp [runBytes, h, hr]

/-- Everything a byte-level run over a longer stream can do when it answers. -/
theorem runBytes_cases {s u : State} {b : Byte} {bs : List Byte} {outs : List Output}
    (h : runBytes s (b :: bs) = .next (u, outs)) :
    ∃ (t : State) (outs' : List Output), stepByte s b = .next t ∧ runBytes t bs = .next (u, outs') ∧
      outs = t.output :: outs' := by
  simp only [runBytes] at h
  split at h
  · rename_i t ht
    split at h
    · rename_i v outs' hr
      cases h
      exact ⟨t, outs', ht, hr, rfl⟩
    · cases h
    · cases h
  · cases h
  · cases h

theorem runCycles_cons {s t u : State} {c : CycleInput} {cs : List CycleInput} {outs : List Output}
    (h : stepCycle s c = .next t) (hr : runCycles t cs = .next (u, outs)) :
    runCycles s (c :: cs) = .next (u, t.output :: outs) := by
  simp [runCycles, h, hr]

/-- Everything a cycle-level run over a longer schedule can do when it answers. -/
theorem runCycles_cases {s u : State} {c : CycleInput} {cs : List CycleInput} {outs : List Output}
    (h : runCycles s (c :: cs) = .next (u, outs)) :
    ∃ (t : State) (outs' : List Output), stepCycle s c = .next t ∧ runCycles t cs = .next (u, outs') ∧
      outs = t.output :: outs' := by
  simp only [runCycles] at h
  split at h
  · rename_i t ht
    split at h
    · rename_i v outs' hr
      cases h
      exact ⟨t, outs', ht, hr, rfl⟩
    · cases h
    · cases h
  · cases h
  · cases h

/-- A run of the host's interface, one step unrolled. -/
theorem core_run_succ {n : Nat} {s t : State} (h : step s = .next t) :
    Host.Core.run Sys2Proof.core (n + 1) s = Host.Core.run Sys2Proof.core n t := by
  have one : Sys2Proof.core.step s = .next t := h
  rw [show Host.Core.run Sys2Proof.core (n + 1) s = _ from Host.Core.run.eq_2 _ _ _, one]

end Sys2Proof.Machine
end

