-- ==== Sys2Proof/Laws/PerInstr.lean ====
section
/-! SUPPORT. Statements about every instruction as syntax, one lemma per constructor of Instr. Family `EncodedRow`: the word
an instruction encodes to matches the row of opcode_table.json that bears its mnemonic (30_encoding.md rule R81). -/

namespace Sys2Proof.Laws.EncodedRow

/-- The encoded word of a well-formed instruction matches its opcode-table row. -/
def Statement (i : Instr) : Prop :=
  i.WellFormed → ∃ r ∈ opcodeTable, r.mnemonic = i.mnemonic ∧ r.accepts (encode i) = true

/-- A dispatch row's mask keeps the header word, which its pattern is. -/
theorem dispatch_accepts (k : TelemetryKind) (v : Word) (t : Byte) (m : String) (priority : Nat) :
    (OpcodeRow.mk m .frame 0x0000000000FFFFFFFF#72 ((headerOf k).setWidth 72) priority).accepts
      (.frame (frameWordOf DEVICE_ID FRAME_TYPE (sensorId k) v t)) = true := by
  simp [OpcodeRow.accepts, InstrWord.format, InstrWord.bits, and_mask_header, header_eq, headerOf]

theorem idleStart : Statement .idleStart := fun _ =>
  ⟨⟨"IDLE_START", .sel, 0x3FF#72, 0x07E#72, 0⟩, by decide, rfl, by decide⟩

theorem payEsc : Statement .payEsc := fun _ =>
  ⟨⟨"PAY_ESC", .sel, 0x3FF#72, 0x17D#72, 0⟩, by decide, rfl, by decide⟩

theorem escData (b : Byte) : Statement (.escData b) := fun _ =>
  ⟨⟨"ESC_DATA", .sel, 0x300#72, 0x200#72, 0⟩, by decide, rfl, by revert b; decide⟩

theorem idleSkip (b : Byte) : Statement (.idleSkip b) := fun _ =>
  ⟨⟨"IDLE_SKIP", .sel, 0x300#72, 0x000#72, 1⟩, by decide, rfl, by revert b; decide⟩

theorem payData (b : Byte) : Statement (.payData b) := fun _ =>
  ⟨⟨"PAY_DATA", .sel, 0x300#72, 0x100#72, 1⟩, by decide, rfl, by revert b; decide⟩

theorem dispatchFuel (v : Word) (t : Byte) : Statement (.dispatchFuel v t) := fun _ =>
  ⟨⟨"DISPATCH_FUEL", .frame, 0x0000000000FFFFFFFF#72, 0x00000000000600101B#72, 0⟩, by decide, rfl,
    dispatch_accepts .fuel v t "DISPATCH_FUEL" 0⟩

theorem dispatchGps (v : Word) (t : Byte) : Statement (.dispatchGps v t) := fun _ =>
  ⟨⟨"DISPATCH_GPS", .frame, 0x0000000000FFFFFFFF#72, 0x00000000000800101B#72, 0⟩, by decide, rfl,
    dispatch_accepts .gps v t "DISPATCH_GPS" 0⟩

theorem dispatchVbat (v : Word) (t : Byte) : Statement (.dispatchVbat v t) := fun _ =>
  ⟨⟨"DISPATCH_VBAT", .frame, 0x0000000000FFFFFFFF#72, 0x00000000000210101B#72, 0⟩, by decide, rfl,
    dispatch_accepts .vbat v t "DISPATCH_VBAT" 0⟩

theorem dispatchCellVoltage (v : Word) (t : Byte) : Statement (.dispatchCellVoltage v t) := fun _ =>
  ⟨⟨"DISPATCH_CELL_VOLTAGE", .frame, 0x0000000000FFFFFFFF#72, 0x00000000000910101B#72, 0⟩, by decide, rfl,
    dispatch_accepts .cellVoltage v t "DISPATCH_CELL_VOLTAGE" 0⟩

theorem dispatchCurrent (v : Word) (t : Byte) : Statement (.dispatchCurrent v t) := fun _ =>
  ⟨⟨"DISPATCH_CURRENT", .frame, 0x0000000000FFFFFFFF#72, 0x00000000000200101B#72, 0⟩, by decide, rfl,
    dispatch_accepts .current v t "DISPATCH_CURRENT" 0⟩

theorem dispatchHeading (v : Word) (t : Byte) : Statement (.dispatchHeading v t) := fun _ =>
  ⟨⟨"DISPATCH_HEADING", .frame, 0x0000000000FFFFFFFF#72, 0x00000000000840101B#72, 0⟩, by decide, rfl,
    dispatch_accepts .heading v t "DISPATCH_HEADING" 0⟩

theorem dispatchRssi (v : Word) (t : Byte) : Statement (.dispatchRssi v t) := fun _ =>
  ⟨⟨"DISPATCH_RSSI", .frame, 0x0000000000FFFFFFFF#72, 0x0000000000F101101B#72, 0⟩, by decide, rfl,
    dispatch_accepts .rssi v t "DISPATCH_RSSI" 0⟩

theorem dispatchFlymode (v : Word) (t : Byte) : Statement (.dispatchFlymode v t) := fun _ =>
  ⟨⟨"DISPATCH_FLYMODE", .frame, 0x0000000000FFFFFFFF#72, 0x00000000000400101B#72, 0⟩, by decide, rfl,
    dispatch_accepts .flymode v t "DISPATCH_FLYMODE" 0⟩

theorem dispatchGpsState (v : Word) (t : Byte) : Statement (.dispatchGpsState v t) := fun _ =>
  ⟨⟨"DISPATCH_GPS_STATE", .frame, 0x0000000000FFFFFFFF#72, 0x00000000000410101B#72, 0⟩, by decide, rfl,
    dispatch_accepts .gpsState v t "DISPATCH_GPS_STATE" 0⟩

theorem dispatchAltitude (v : Word) (t : Byte) : Statement (.dispatchAltitude v t) := fun _ =>
  ⟨⟨"DISPATCH_ALTITUDE", .frame, 0x0000000000FFFFFFFF#72, 0x00000000000100101B#72, 0⟩, by decide, rfl,
    dispatch_accepts .altitude v t "DISPATCH_ALTITUDE" 0⟩

theorem dispatchGalt (v : Word) (t : Byte) : Statement (.dispatchGalt v t) := fun _ =>
  ⟨⟨"DISPATCH_GALT", .frame, 0x0000000000FFFFFFFF#72, 0x00000000000820101B#72, 0⟩, by decide, rfl,
    dispatch_accepts .galt v t "DISPATCH_GALT" 0⟩

theorem dispatchDistance (v : Word) (t : Byte) : Statement (.dispatchDistance v t) := fun _ =>
  ⟨⟨"DISPATCH_DISTANCE", .frame, 0x0000000000FFFFFFFF#72, 0x00000000000420101B#72, 0⟩, by decide, rfl,
    dispatch_accepts .distance v t "DISPATCH_DISTANCE" 0⟩

theorem dispatchGspeed (v : Word) (t : Byte) : Statement (.dispatchGspeed v t) := fun _ =>
  ⟨⟨"DISPATCH_GSPEED", .frame, 0x0000000000FFFFFFFF#72, 0x00000000000830101B#72, 0⟩, by decide, rfl,
    dispatch_accepts .gspeed v t "DISPATCH_GSPEED" 0⟩

theorem dispatchPitch (v : Word) (t : Byte) : Statement (.dispatchPitch v t) := fun _ =>
  ⟨⟨"DISPATCH_PITCH", .frame, 0x0000000000FFFFFFFF#72, 0x00000000000430101B#72, 0⟩, by decide, rfl,
    dispatch_accepts .pitch v t "DISPATCH_PITCH" 0⟩

theorem dispatchRoll (v : Word) (t : Byte) : Statement (.dispatchRoll v t) := fun _ =>
  ⟨⟨"DISPATCH_ROLL", .frame, 0x0000000000FFFFFFFF#72, 0x00000000000440101B#72, 0⟩, by decide, rfl,
    dispatch_accepts .roll v t "DISPATCH_ROLL" 0⟩

theorem dispatchVspeed (v : Word) (t : Byte) : Statement (.dispatchVspeed v t) := fun _ =>
  ⟨⟨"DISPATCH_VSPEED", .frame, 0x0000000000FFFFFFFF#72, 0x00000000000110101B#72, 0⟩, by decide, rfl,
    dispatch_accepts .vspeed v t "DISPATCH_VSPEED" 0⟩

theorem dropUnknown (id : Half) (v : Word) (t : Byte) : Statement (.dropUnknown id v t) := fun _ =>
  ⟨⟨"DROP_UNKNOWN", .frame, 0x00000000000000FFFF#72, 0x00000000000000101B#72, 1⟩, by decide, rfl, by
    simp [OpcodeRow.accepts, InstrWord.format, InstrWord.bits, encode, and_mask_accept]
    decide⟩

theorem dropType (ty : Byte) (id : Half) (v : Word) (t : Byte) : Statement (.dropType ty id v t) := fun _ =>
  ⟨⟨"DROP_TYPE", .frame, 0x0000000000000000FF#72, 0x00000000000000001B#72, 2⟩, by decide, rfl, by
    simp [OpcodeRow.accepts, InstrWord.format, InstrWord.bits, encode, and_mask_device]⟩

theorem dropDevice (dev ty : Byte) (id : Half) (v : Word) (t : Byte) : Statement (.dropDevice dev ty id v t) := fun _ =>
  ⟨⟨"DROP_DEVICE", .frame, 0x000000000000000000#72, 0x000000000000000000#72, 3⟩, by decide, rfl, by
    simp [OpcodeRow.accepts, InstrWord.format, InstrWord.bits, encode]⟩

theorem reset (v : Bool) : Statement (.reset v) := fun _ =>
  ⟨⟨"RESET", .ctrl, 0x2#72, 0x2#72, 0⟩, by decide, rfl, by cases v <;> decide⟩

theorem hold : Statement .hold := fun _ =>
  ⟨⟨"HOLD", .ctrl, 0x3#72, 0x0#72, 0⟩, by decide, rfl, by decide⟩

end Sys2Proof.Laws.EncodedRow
end

