-- ==== Sys2Proof/Tests/Slice0.lean ====
section
/-! SUPPORT. Small tests: the checks of WellFormed, decoding from words written out of the spec, one step each from the
vectors of 95_test_vectors.md (their row is named before each), and for every statement with hypotheses a witness that meets
them. -/

namespace Sys2Proof.Tests

open Sys2Proof.Machine

/-! ## Helpers -/

/-- The outcome is a next state with the property. -/
def nextWith {f r : Type} (o : Host.Outcome State f r) (p : State → Bool) : Bool :=
  match o with
  | .next t => p t
  | .fault _ => false
  | .refused _ => false

/-- A state with nothing on its ports and nothing scheduled. -/
def st0 (st : DecoderState) (cur : Fin (FRAME_LEN + 1)) (buf : PacketBuffer) : State := ⟨st, cur, buf, none, none, []⟩

/-- The payload of vectors S1, T5, T17 and K3, with 0xEE for the vectors' unknown bytes from position 8 on. -/
def vbat : PacketBuffer := #v[0x1B#8, 0x10#8, 0x10#8, 0x02#8, 0x98#8, 0x01#8, 0x00#8, 0x00#8, 0xEE#8]

/-- The decoder state, cursor and output after a step are as the vector has them. -/
def lands (o : Host.Outcome State Fault Refusal) (st : DecoderState) (cur : Fin (FRAME_LEN + 1)) (buf : PacketBuffer)
    (out : Output) : Bool :=
  nextWith o fun t => t.st == st && t.cur == cur && t.buf == buf && t.output == out

/-- One byte completes the payload `p`, with the event `e`: from `(Payload, 8)` with the first eight bytes in place. -/
def completesTo (p : PacketBuffer) (e : Option TelemetryEvent) : Bool :=
  lands (stepByte (st0 .payload 8 (p.set 8 0xEE#8)) p[8]) .idle 9 p ⟨some p, e⟩

/-- No output. -/
def quiet : Output := ⟨none, none⟩

/-! ## WellFormed refuses an ill-formed term, check by check -/

theorem test_wf_idle_skip : ¬ (Instr.idleSkip 0x7E#8).WellFormed := by decide
theorem test_wf_pay_data : ¬ (Instr.payData 0x7D#8).WellFormed := by decide
theorem test_wf_drop_unknown : ¬ (Instr.dropUnknown 0x0210#16 0#32 0#8).WellFormed := by decide
theorem test_wf_drop_type : ¬ (Instr.dropType 0x10#8 0x0210#16 0#32 0#8).WellFormed := by decide
theorem test_wf_drop_device : ¬ (Instr.dropDevice 0x1B#8 0x10#8 0x0210#16 0#32 0#8).WellFormed := by decide
theorem test_wf_noise : (StreamItem.noise 0x7E#8 3).wellFormed = false := by decide
theorem test_wf_plain_unit : (WireUnit.plain 0x7D#8).wellFormed = false := by decide

/-! ## Every constructor decoded from a word of the spec -/

/-- Rows of R62 and R81, written out bit by bit: the state code, then the byte. -/
theorem test_decode_idle_start : decode (.sel 0b0001111110#10) = .ok .idleStart := by decide
theorem test_decode_pay_esc : decode (.sel 0b0101111101#10) = .ok .payEsc := by decide
theorem test_decode_esc_data : decode (.sel 0b1001111110#10) = .ok (.escData 0x7E#8) := by decide
theorem test_decode_idle_skip : decode (.sel 0b0001111101#10) = .ok (.idleSkip 0x7D#8) := by decide
theorem test_decode_pay_data : decode (.sel 0b0101111110#10) = .ok (.payData 0x7E#8) := by decide
theorem test_decode_reset : decode (.ctrl 0b11#2) = .ok (.reset true) := by decide
theorem test_decode_hold : decode (.ctrl 0b00#2) = .ok .hold := by decide
theorem test_decode_reserved_state : decode (.sel 0b1100000000#10) = .error .reservedState := by decide
theorem test_decode_byte_step : decode (.ctrl 0b01#2) = .error .byteStep := by decide

/-! The frame words of rows K1 to K16, K20, K21, K24, K25 and K31. -/

theorem test_decode_fuel : decode (.frame 0x00000000640600101B#72) = .ok (.dispatchFuel 0x64#32 0x00#8) := by decide
theorem test_decode_gps : decode (.frame 0x00123456780800101B#72) = .ok (.dispatchGps 0x12345678#32 0x00#8) := by decide
theorem test_decode_vbat : decode (.frame 0x00000001980210101B#72) = .ok (.dispatchVbat 0x198#32 0x00#8) := by decide
theorem test_decode_cell_voltage : decode (.frame 0x00000001A40910101B#72) = .ok (.dispatchCellVoltage 0x1A4#32 0x00#8) := by decide
theorem test_decode_current : decode (.frame 0x00FFFFFFFF0200101B#72) = .ok (.dispatchCurrent 0xFFFFFFFF#32 0x00#8) := by decide
theorem test_decode_heading : decode (.frame 0x00000023280840101B#72) = .ok (.dispatchHeading 0x2328#32 0x00#8) := by decide
theorem test_decode_rssi : decode (.frame 0x000000007EF101101B#72) = .ok (.dispatchRssi 0x7E#32 0x00#8) := by decide
theorem test_decode_flymode : decode (.frame 0x00000000050400101B#72) = .ok (.dispatchFlymode 0x5#32 0x00#8) := by decide
theorem test_decode_gps_state : decode (.frame 0x000000000C0410101B#72) = .ok (.dispatchGpsState 0xC#32 0x00#8) := by decide
theorem test_decode_altitude : decode (.frame 0x00FFFFFF9C0100101B#72) = .ok (.dispatchAltitude 0xFFFFFF9C#32 0x00#8) := by decide
theorem test_decode_galt : decode (.frame 0x00000027100820101B#72) = .ok (.dispatchGalt 0x2710#32 0x00#8) := by decide
theorem test_decode_distance : decode (.frame 0x00000003E80420101B#72) = .ok (.dispatchDistance 0x3E8#32 0x00#8) := by decide
theorem test_decode_gspeed : decode (.frame 0x00800000000830101B#72) = .ok (.dispatchGspeed 0x80000000#32 0x00#8) := by decide
theorem test_decode_pitch : decode (.frame 0x00FFFFFFD30430101B#72) = .ok (.dispatchPitch 0xFFFFFFD3#32 0x00#8) := by decide
theorem test_decode_roll : decode (.frame 0x007FFFFFFF0440101B#72) = .ok (.dispatchRoll 0x7FFFFFFF#32 0x00#8) := by decide
theorem test_decode_vspeed : decode (.frame 0x00000000000110101B#72) = .ok (.dispatchVspeed 0x0#32 0x00#8) := by decide
theorem test_decode_drop_unknown : decode (.frame 0x980210101B7E10101B#72) = .ok (.dropUnknown 0x7E10#16 0x0210101B#32 0x98#8) := by
  decide
theorem test_decode_drop_type : decode (.frame 0x07060504030201111B#72) = .ok (.dropType 0x11#8 0x0201#16 0x06050403#32 0x07#8) := by
  decide
theorem test_decode_drop_device : decode (.frame 0x00000001980211111A#72) = .ok (.dropDevice 0x1A#8 0x11#8 0x0211#16 0x198#32 0x00#8) := by
  decide

/-! The same words through the table's numbering. -/

theorem test_table_numbering : decodeTableWord 16 0x25E = some (.escData 0x5E#8) ∧ decodeTableWord 72 0x00000001980210101B = some (.dispatchVbat 0x198#32 0#8) ∧
    decodeTableWord 8 2 = some (.reset false) := by decide
theorem test_table_refuses : decodeTableWord 16 0x300 = none ∧ decodeTableWord 8 1 = none ∧ decodeTableWord 16 0x47E = none := by decide

/-! ## The transitions and the cycle-level operations -/

/-- T8: after a completion `cur` is 9, and `IDLE_START` sets it to 0 without clearing the buffer. -/
theorem test_step_idle_start : lands (stepByte (st0 .idle 9 vbat) 0x7E#8) .payload 0 vbat quiet = true := by decide

/-- T5. -/
theorem test_step_idle_skip : lands (stepByte (st0 .idle 9 vbat) 0x55#8) .idle 9 vbat quiet = true := by decide

/-- T2: an `ESC` outside a frame arms nothing. -/
theorem test_step_idle_skip_esc : lands (stepByte (st0 .idle 0 vbat) 0x7D#8) .idle 0 vbat quiet = true := by decide

/-- T11: an `ESC` at `cur = 8` does not complete the frame. -/
theorem test_step_pay_esc : lands (stepByte (st0 .payload 8 vbat) 0x7D#8) .escape 8 vbat quiet = true := by decide

/-- T14: `7E` in `Payload` is data. -/
theorem test_step_pay_data : lands (stepByte (st0 .payload 4 vbat) 0x7E#8) .payload 5 (vbat.set 4 0x7E#8) quiet = true := by decide

/-- T18: a completing `7E` is the trailer. -/
theorem test_step_pay_data_ninth : lands (stepByte (st0 .payload 8 vbat) 0x7E#8) .idle 9 (vbat.set 8 0x7E#8)
    ⟨some (vbat.set 8 0x7E#8), some ⟨.vbat, 0x198#32⟩⟩ = true := by decide

/-- T26. -/
theorem test_step_esc_data : lands (stepByte (st0 .escape 4 vbat) 0xFF#8) .payload 5 (vbat.set 4 0xDF#8) quiet = true := by decide

/-- T29. -/
theorem test_step_esc_data_ninth : lands (stepByte (st0 .escape 8 vbat) 0x5D#8) .idle 9 (vbat.set 8 0x7D#8)
    ⟨some (vbat.set 8 0x7D#8), some ⟨.vbat, 0x198#32⟩⟩ = true := by decide

/-- R151: `rst` beats `in_valid`; a frame in progress is discarded and the buffer stays. -/
theorem test_cycle_reset : lands (stepCycle (st0 .escape 8 vbat) ⟨true, true, 0x5E#8⟩) .idle 0 vbat quiet = true := by decide

/-- R93, R159: a pending escape does not expire. -/
theorem test_cycle_hold : lands (stepCycle (st0 .escape 4 vbat) ⟨false, false, 0x7E#8⟩) .escape 4 vbat quiet = true := by decide

/-! ## Completed frames: rows K1 to K16, K17, K22, K29 -/

theorem test_complete_fuel : completesTo #v[0x1B#8, 0x10#8, 0x00#8, 0x06#8, 0x64#8, 0x00#8, 0x00#8, 0x00#8, 0x00#8] (some ⟨.fuel, 0x64#32⟩) = true := by decide
theorem test_complete_gps : completesTo #v[0x1B#8, 0x10#8, 0x00#8, 0x08#8, 0x78#8, 0x56#8, 0x34#8, 0x12#8, 0x00#8] (some ⟨.gps, 0x12345678#32⟩) = true := by decide
theorem test_complete_vbat : completesTo #v[0x1B#8, 0x10#8, 0x10#8, 0x02#8, 0x98#8, 0x01#8, 0x00#8, 0x00#8, 0x00#8] (some ⟨.vbat, 0x198#32⟩) = true := by decide
theorem test_complete_cell_voltage : completesTo #v[0x1B#8, 0x10#8, 0x10#8, 0x09#8, 0xA4#8, 0x01#8, 0x00#8, 0x00#8, 0x00#8] (some ⟨.cellVoltage, 0x1A4#32⟩) = true := by decide
theorem test_complete_current : completesTo #v[0x1B#8, 0x10#8, 0x00#8, 0x02#8, 0xFF#8, 0xFF#8, 0xFF#8, 0xFF#8, 0x00#8] (some ⟨.current, 0xFFFFFFFF#32⟩) = true := by decide
theorem test_complete_heading : completesTo #v[0x1B#8, 0x10#8, 0x40#8, 0x08#8, 0x28#8, 0x23#8, 0x00#8, 0x00#8, 0x00#8] (some ⟨.heading, 0x2328#32⟩) = true := by decide
theorem test_complete_rssi : completesTo #v[0x1B#8, 0x10#8, 0x01#8, 0xF1#8, 0x7E#8, 0x00#8, 0x00#8, 0x00#8, 0x00#8] (some ⟨.rssi, 0x7E#32⟩) = true := by decide
theorem test_complete_flymode : completesTo #v[0x1B#8, 0x10#8, 0x00#8, 0x04#8, 0x05#8, 0x00#8, 0x00#8, 0x00#8, 0x00#8] (some ⟨.flymode, 0x5#32⟩) = true := by decide
theorem test_complete_gps_state : completesTo #v[0x1B#8, 0x10#8, 0x10#8, 0x04#8, 0x0C#8, 0x00#8, 0x00#8, 0x00#8, 0x00#8] (some ⟨.gpsState, 0xC#32⟩) = true := by decide
theorem test_complete_altitude : completesTo #v[0x1B#8, 0x10#8, 0x00#8, 0x01#8, 0x9C#8, 0xFF#8, 0xFF#8, 0xFF#8, 0x00#8] (some ⟨.altitude, 0xFFFFFF9C#32⟩) = true := by decide
theorem test_complete_galt : completesTo #v[0x1B#8, 0x10#8, 0x20#8, 0x08#8, 0x10#8, 0x27#8, 0x00#8, 0x00#8, 0x00#8] (some ⟨.galt, 0x2710#32⟩) = true := by decide
theorem test_complete_distance : completesTo #v[0x1B#8, 0x10#8, 0x20#8, 0x04#8, 0xE8#8, 0x03#8, 0x00#8, 0x00#8, 0x00#8] (some ⟨.distance, 0x3E8#32⟩) = true := by decide
theorem test_complete_gspeed : completesTo #v[0x1B#8, 0x10#8, 0x30#8, 0x08#8, 0x00#8, 0x00#8, 0x00#8, 0x80#8, 0x00#8] (some ⟨.gspeed, 0x80000000#32⟩) = true := by decide
theorem test_complete_pitch : completesTo #v[0x1B#8, 0x10#8, 0x30#8, 0x04#8, 0xD3#8, 0xFF#8, 0xFF#8, 0xFF#8, 0x00#8] (some ⟨.pitch, 0xFFFFFFD3#32⟩) = true := by decide
theorem test_complete_roll : completesTo #v[0x1B#8, 0x10#8, 0x40#8, 0x04#8, 0xFF#8, 0xFF#8, 0xFF#8, 0x7F#8, 0x00#8] (some ⟨.roll, 0x7FFFFFFF#32⟩) = true := by decide
theorem test_complete_vspeed : completesTo #v[0x1B#8, 0x10#8, 0x10#8, 0x01#8, 0x00#8, 0x00#8, 0x00#8, 0x00#8, 0x00#8] (some ⟨.vspeed, 0x0#32⟩) = true := by decide
theorem test_complete_drop_device : completesTo #v[0x1A#8, 0x10#8, 0x10#8, 0x02#8, 0x98#8, 0x01#8, 0x00#8, 0x00#8, 0x00#8] none = true := by decide
theorem test_complete_drop_type : completesTo #v[0x1B#8, 0x11#8, 0x10#8, 0x02#8, 0x98#8, 0x01#8, 0x00#8, 0x00#8, 0x00#8] none = true := by decide
theorem test_complete_drop_unknown : completesTo #v[0x1B#8, 0x10#8, 0xF1#8, 0x01#8, 0x7E#8, 0x00#8, 0x00#8, 0x00#8, 0x00#8] none = true := by decide

/-- K10: the sink's reading of the value. -/
theorem test_signed : signed 0xFFFFFF9C#32 = -100 := by decide

/-- K2: the packed word of a payload (R69). -/
theorem test_pack : pack #v[0x1B#8, 0x10#8, 0x00#8, 0x08#8, 0x78#8, 0x56#8, 0x34#8, 0x12#8, 0x00#8] = 0x00123456780800101B#72 := by decide

/-- S2: canonical stuffing of the RSSI payload. -/
theorem test_stuff : stuff #v[0x1B#8, 0x10#8, 0x01#8, 0xF1#8, 0x7E#8, 0x00#8, 0x00#8, 0x00#8, 0x00#8] =
    [0x7E#8, 0x1B#8, 0x10#8, 0x01#8, 0xF1#8, 0x7D#8, 0x5E#8, 0x00#8, 0x00#8, 0x00#8, 0x00#8] := by decide

/-- S1: `SENSOR(0x0210, 408)` is these ten wire bytes. -/
theorem test_sensor_item : (StreamItem.sensor 0x0210#16 408).cycles.map CycleInput.inData =
    [0x7E#8, 0x1B#8, 0x10#8, 0x10#8, 0x02#8, 0x98#8, 0x01#8, 0x00#8, 0x00#8, 0x00#8] := by decide

/-! ## Staging a word as the next one -/

theorem test_stage_ctrl : nextWith (step (State.reset.withFetchWord 8 2)) (fun t => t.st == .idle && t.output == quiet) = true := by decide
theorem test_stage_sel : nextWith (step (State.reset.withFetchWord 16 0x25E)) (fun t => t.buf[0] == 0x7E#8 && t.st == .payload) = true := by decide
theorem test_stage_frame : nextWith (step (State.reset.withFetchWord 72 0x00000001980210101B))
    (fun t => t.eventPort == some ⟨.vbat, 0x198#32⟩ && t.framePort == some (vbat.set 8 0x00#8)) = true := by decide
theorem test_stage_frame_trailer_esc : nextWith (step (State.reset.withFetchWord 72 0x7D000001980210101B))
    (fun t => t.eventPort == some ⟨.vbat, 0x198#32⟩ && t.framePort == some (vbat.set 8 0x7D#8)) = true := by decide

/-! ## Witnesses: the hypotheses of the statements can be met -/

theorem witness_DecodeInvertsEncode : (Instr.idleSkip 0xFF#8).WellFormed ∧ (Instr.payData 0x7E#8).WellFormed ∧
    (Instr.dropUnknown 0x0211#16 0#32 0#8).WellFormed ∧ (Instr.dropType 0x11#8 0x0210#16 0#32 0#8).WellFormed ∧
    (Instr.dropDevice 0x1A#8 0x10#8 0x0210#16 0#32 0#8).WellFormed ∧ Instr.hold.WellFormed := by decide

theorem witness_EncodeInvertsDecode : decode (.sel 0x07F#10) = .ok (.idleSkip 0x7F#8) ∧ decode (.ctrl 0b10#2) = .ok (.reset false) ∧
    decode (.frame 0#72) = .ok (.dropDevice 0#8 0#8 0#16 0#32 0#8) := by decide

theorem witness_LowestPriorityRowIsDecoded : decode (.sel 0x07E#10) = .ok .idleStart ∧ decode (.sel 0x3FF#10) = .error .reservedState := by decide

theorem witness_OnlyReservedWordsAreRejected : decode (.sel (0b11#2 ++ 0x00#8)) = .error .reservedState ∧
    decode (.ctrl 0b01#2) = .error .byteStep := by decide

theorem witness_StepRunsDecodedInstruction_byte : ({ st0 .idle 0 vbat with inputs := [byteInput 0x7E#8] } : State).inputs = [byteInput 0x7E#8] ∧
    (byteInput 0x7E#8).rst = false ∧ (byteInput 0x7E#8).inValid = true ∧ decode (.sel (selWord .idle 0x7E#8)) = .ok .idleStart := by decide

theorem witness_StepRunsDecodedInstruction_reset : (CycleInput.mk true true 0#8).rst = true ∧
    decode (.ctrl (ctrlWord ⟨true, true, 0#8⟩)) = .ok (.reset true) := by decide

theorem witness_StepRunsDecodedInstruction_hold : (CycleInput.mk false false 0#8).inValid = false ∧
    decode (.ctrl (ctrlWord ⟨false, false, 0#8⟩)) = .ok .hold := by decide

theorem witness_StepRunsDecodedInstruction_idle : State.reset.inputs = [] := rfl

/-- A completing byte from `Payload` and from `Escape`, of a frame that will be dropped. -/
theorem witness_CompletedFrame_completes : completes (st0 .payload 8 (vbat.set 0 0x1A#8)) 0x99#8 = true ∧
    completes (st0 .escape 8 (vbat.set 0 0x1A#8)) 0x7D#8 = true := by decide

/-- A completing step: the hypotheses of `CompletingStepRunsFrameInstruction` and `CompletedFrameIsFiltered`, the last clause of
the latter included. -/
theorem witness_CompletedFrame : ∃ t : State, stepByte (st0 .payload 8 vbat) 0x00#8 = .next t ∧ t.framePort = some (vbat.set 8 0x00#8) ∧
    (vbat.set 8 0x00#8)[0] = 0x1B#8 ∧ (vbat.set 8 0x00#8)[1] = 0x10#8 ∧
    lookup ((vbat.set 8 0x00#8)[3] ++ (vbat.set 8 0x00#8)[2]) = some .vbat :=
  ⟨_, rfl, rfl, rfl, rfl, by decide⟩

/-- Rows T32, K22 and K25: a wrong device, a wrong type and an unknown identifier, in a completing step. -/
theorem witness_CompletedFrame_dropped :
    (∃ t : State, stepByte (st0 .payload 8 (vbat.set 0 0x1A#8)) 0x99#8 = .next t ∧ ∃ f : PacketBuffer, t.framePort = some f ∧ f[0] ≠ 0x1B#8) ∧
    (∃ t : State, stepByte (st0 .payload 8 (vbat.set 1 0x11#8)) 0x00#8 = .next t ∧ ∃ f : PacketBuffer, t.framePort = some f ∧ f[1] ≠ 0x10#8) ∧
    (∃ t : State, stepByte (st0 .payload 8 (vbat.set 2 0x11#8)) 0x00#8 = .next t ∧
      ∃ f : PacketBuffer, t.framePort = some f ∧ lookup (f[3] ++ f[2]) = none) :=
  ⟨⟨_, rfl, _, rfl, by decide⟩, ⟨_, rfl, _, rfl, by decide⟩, ⟨_, rfl, _, rfl, by decide⟩⟩

theorem witness_StagedWordRunsNext : encode (.escData 0x5E#8) = .sel 0x25E#10 ∧ encode (.reset true) = .ctrl 3#2 ∧
    encode (.dispatchVbat 0x198#32 0x7D#8) = .frame 0x7D000001980210101B#72 := by decide

theorem witness_CoreRunFollowsSchedule : ∃ (t : State) (outs : List Output),
    runCycles (st0 .payload 8 vbat) [⟨false, true, 0x00#8⟩, ⟨false, false, 0x55#8⟩, ⟨true, true, 0x7E#8⟩] = .next (t, outs) :=
  ⟨_, _, rfl⟩

/-- The clauses of `IdleStartOpensFrame`: `START` from `(Idle, 9)`; the cursor set to 0 and `Idle` left in that step; a
completing step; `START` in `Escape`. -/
theorem witness_IdleStartOpensFrame : (st0 .idle 9 vbat).st = .idle ∧
    (∃ t : State, stepByte (st0 .idle 9 vbat) 0x7E#8 = .next t ∧ t.cur = 0 ∧ (st0 .idle 9 vbat).cur ≠ 0 ∧ t.st ≠ .idle) ∧
    (∃ t : State, stepByte (st0 .escape 8 vbat) 0x20#8 = .next t ∧ t.framePort ≠ none) ∧ (st0 .escape 8 vbat).st ≠ .idle :=
  ⟨rfl, ⟨_, rfl, rfl, by decide, by decide⟩, ⟨_, rfl, nofun⟩, by decide⟩

theorem witness_IdleSkipLeavesNoTrace : (st0 .idle 9 vbat).st = .idle ∧ ∀ b ∈ [0x00#8, 0xFF#8, 0x7D#8, 0x7F#8], b ≠ 0x7E#8 := by decide

theorem witness_PayEscArmsEscape : (st0 .payload 0 vbat).cur.val ≤ 8 ∧ (st0 .payload 8 vbat).st = .payload ∧
    (st0 .payload 8 vbat).cur.val ≤ 8 ∧ (st0 .payload 8 vbat).cur.val = 8 := by decide

/-- Both ends of the cursor's range: `cur = 0` and the completing `cur = 8`. -/
theorem witness_PayDataWritesByte : (st0 .payload 0 vbat).cur.val ≤ 8 ∧ (st0 .payload 8 vbat).cur.val ≤ 8 ∧
    (st0 .payload 8 vbat).st = .payload ∧ (0x7E#8 : Byte) ≠ 0x7D#8 := by decide

theorem witness_EscDataWritesXoredByte : (st0 .escape 0 vbat).cur.val ≤ 8 ∧ (st0 .escape 8 vbat).cur.val ≤ 8 ∧
    (st0 .escape 8 vbat).st = .escape := by decide

/-- Both closing clauses of `Wrote`: the eighth write leaves the frame open, the ninth completes it. -/
theorem witness_Wrote : nextWith (exec (.payData 0x05#8) (st0 .payload 7 vbat)) (fun t => t.cur.val != 9 && t.st == .payload) = true ∧
    nextWith (exec (.payData 0x05#8) (st0 .payload 8 vbat)) (fun t => t.cur.val == 9 && t.st == .idle) = true := by decide

theorem witness_WritePastBufferIsRefused : (st0 .payload 9 vbat).cur.val = 9 ∧ (st0 .payload 9 vbat).st ≠ .idle := by decide

/-- Every instruction may answer a next state, and each premise of `InstructionsWriteOnlyTheirOwn` is met by one. -/
theorem witness_InstructionsWriteOnlyTheirOwn : (∃ t : State, exec (.payData 0x05#8) (st0 .payload 8 vbat) = .next t ∧
      t.buf ≠ (st0 .payload 8 vbat).buf ∧ t.cur ≠ (st0 .payload 8 vbat).cur ∧ t.st ≠ (st0 .payload 8 vbat).st ∧
      t.framePort ≠ none ∧ t.framePort ≠ (st0 .payload 8 vbat).framePort) ∧
    (0 : Nat) ≠ (st0 .payload 8 vbat).cur.val :=
  ⟨⟨_, rfl, by decide, by decide, by decide, nofun, nofun⟩, by decide⟩

theorem witness_DropsDriveNoEvent : (0x1A#8 : Byte) ≠ 0x1B#8 ∧ (0x11#8 : Byte) ≠ 0x10#8 ∧ lookup 0x0211#16 = none := by decide

theorem witness_DispatchMatchesHeaderWord :
    (vbat.set 0 0x1A#8)[0] ≠ 0x1B#8 ∧ ((vbat.set 1 0x11#8)[0] = 0x1B#8 ∧ (vbat.set 1 0x11#8)[1] ≠ 0x10#8) ∧
    ((vbat.set 2 0x11#8)[0] = 0x1B#8 ∧ (vbat.set 2 0x11#8)[1] = 0x10#8 ∧ lookup ((vbat.set 2 0x11#8)[3] ++ (vbat.set 2 0x11#8)[2]) = none) ∧
    (vbat[0] = 0x1B#8 ∧ vbat[1] = 0x10#8 ∧ lookup (vbat[3] ++ vbat[2]) = some .vbat) := by decide

theorem witness_TrailerIsNotExamined : vbat ≠ vbat.set 8 0x00#8 ∧
    ∀ (k : Nat) (hk : k < FRAME_LEN), k ≠ 8 → vbat[k] = (vbat.set 8 0x00#8)[k] := by decide

theorem witness_ValueIsPassedThrough : dispatch vbat = some ⟨.vbat, 0x198#32⟩ ∧
    (pack (vbat.set 4 0x99#8)).extractLsb' 0 32 = (pack vbat).extractLsb' 0 32 ∧
    (pack (vbat.set 3 0x09#8)).extractLsb' 32 32 = (pack vbat).extractLsb' 32 32 ∧
    dispatch (vbat.set 3 0x09#8) = some ⟨.cellVoltage, 0x198#32⟩ := by decide

/-- `PortsFollowCompletion`: a completing cycle with an event, one with a frame alone, and a reset cycle. -/
theorem witness_PortsFollowCompletion : (st0 .payload 8 vbat).CursorOk ∧
    nextWith (stepCycle (st0 .payload 8 vbat) ⟨false, true, 0x00#8⟩) (fun t => t.output.ports.frameValid && t.output.ports.evtValid) = true ∧
    nextWith (stepCycle (st0 .payload 8 (vbat.set 0 0x1A#8)) ⟨false, true, 0x00#8⟩)
      (fun t => t.output.ports.frameValid && !t.output.ports.evtValid) = true ∧
    nextWith (stepCycle (st0 .payload 8 vbat) ⟨true, true, 0x00#8⟩) (fun t => !t.output.ports.frameValid) = true := by decide

theorem witness_OutputsAreCombinational : completes (st0 .escape 8 vbat) 0x7D#8 = true ∧ completes (st0 .payload 8 vbat) 0x7D#8 = false ∧
    nextWith (stepByte (st0 .escape 8 vbat) 0x7D#8) (fun t => t.framePort.isSome) = true ∧
    nextWith (stepByte (st0 .payload 8 vbat) 0x7D#8) (fun t => t.framePort.isNone) = true := by decide

/-- A legal state in the middle of a frame, from which a step answers: the hypotheses of `BytesKeepCursorInsideBuffer`,
`StepKeepsInvariant`, `StepNeverStops` and `EveryRunIsSafe`. -/
theorem witness_StepKeepsInvariant : (st0 .escape 8 vbat).CursorOk ∧ (st0 .escape 8 vbat).Inv ∧
    (∃ t : State, stepByte (st0 .escape 8 vbat) 0x00#8 = .next t) ∧ (∃ t : State, step (st0 .escape 8 vbat) = .next t) :=
  ⟨by decide, by decide, ⟨_, rfl⟩, ⟨_, rfl⟩⟩

theorem witness_IdleIsReachedWithinEighteenBytes : (st0 .payload 0 vbat).CursorOk ∧ (List.replicate 18 0x7D#8).length = 18 ∧
    (st0 .escape 0 vbat).CursorOk ∧ (st0 .escape 0 vbat).st = .escape ∧ (List.replicate 17 0x7D#8).length = 17 := by decide

/-- An ordinary write, and the ninth. -/
theorem witness_NoResynchronisationInsideFrame :
    (∃ t : State, (st0 .payload 7 vbat).st ≠ .idle ∧ stepByte (st0 .payload 7 vbat) 0x7E#8 = .next t ∧ t.st ≠ .idle) ∧
    (∃ t : State, (st0 .payload 8 vbat).st ≠ .idle ∧ stepByte (st0 .payload 8 vbat) 0x7E#8 = .next t ∧ t.st = .idle) :=
  ⟨⟨_, by decide, rfl, by decide⟩, ⟨_, by decide, rfl, rfl⟩⟩

theorem witness_RunOfAppend : ∃ (t u : State) (o o' : List Output), runBytes (st0 .idle 0 vbat) [0x00#8, 0x7E#8] = .next (t, o) ∧
    runBytes t [0x7D#8, 0x5E#8] = .next (u, o') :=
  ⟨_, _, _, _, rfl, rfl⟩

theorem witness_EscapeRoundTrip : (st0 .payload 0 vbat).st = .payload ∧ (st0 .payload 0 vbat).cur.val ≤ 8 ∧
    (st0 .payload 8 vbat).st = .payload ∧ (st0 .payload 8 vbat).cur.val ≤ 8 := by decide

theorem witness_ExactFraming : (st0 .idle 0 vbat).st = .idle ∧
    ([WireUnit.plain 0x7E#8, .escaped 0x7D#8] ++ List.replicate 7 (WireUnit.plain 0x00#8)).length = 9 ∧
    ∀ u ∈ [WireUnit.plain 0x7E#8, .escaped 0x7D#8] ++ List.replicate 7 (WireUnit.plain 0x00#8), u.wellFormed = true := by decide

theorem witness_StuffedStreamsAreReassembled : (st0 .idle 0 vbat).st = .idle ∧
    ∀ item ∈ [([0x00#8, 0x7D#8], vbat), (([] : List Byte), vbat)], ∀ b ∈ item.1, b ≠ 0x7E#8 := by decide

theorem witness_DoubledStartIsDropped : (st0 .idle 0 vbat).st = .idle ∧ (List.replicate 8 0x1B#8).length = 8 ∧
    ∀ b ∈ List.replicate 8 0x1B#8, b ≠ 0x7D#8 := by decide

theorem witness_IdleCyclesNeverExpireAnything : ∃ t : State, stepByte (st0 .escape 4 vbat) 0x5E#8 = .next t := ⟨_, rfl⟩

theorem witness_CyclesProjectToBytes : (∀ c ∈ [CycleInput.mk false true 0x7E#8, ⟨false, false, 0#8⟩], c.rst = false) ∧
    ∃ (t : State) (outs : List Output), runCycles (st0 .idle 0 vbat) [⟨false, true, 0x7E#8⟩, ⟨false, false, 0#8⟩] = .next (t, outs) :=
  ⟨by decide, _, _, rfl⟩

theorem witness_OutputsIgnoreInitialBuffer : (st0 .idle 0 vbat).st = .idle ∧ State.reset.st = .idle ∧ (st0 .idle 0 vbat).buf ≠ State.reset.buf ∧
    (∃ (t : State) (outs : List Output), runCycles (st0 .idle 0 vbat) [⟨false, true, 0x7E#8⟩, ⟨false, true, 0x1B#8⟩] = .next (t, outs)) ∧
    ∃ (t : State) (outs : List Output), runCycles State.reset [⟨false, true, 0x7E#8⟩, ⟨false, true, 0x1B#8⟩] = .next (t, outs) :=
  ⟨rfl, rfl, by decide, ⟨_, _, rfl⟩, ⟨_, _, rfl⟩⟩

theorem witness_ResetForgetsThePast : (CycleInput.mk true false 0#8).rst = true ∧
    (∃ (t : State) (outs : List Output), runCycles (st0 .escape 8 vbat) [⟨true, false, 0#8⟩, ⟨false, true, 0x7E#8⟩] = .next (t, outs)) ∧
    ∃ (t : State) (outs : List Output), runCycles (st0 .idle 9 vbat) [⟨true, false, 0#8⟩, ⟨false, true, 0x7E#8⟩] = .next (t, outs) :=
  ⟨rfl, ⟨_, _, rfl⟩, ⟨_, _, rfl⟩⟩

theorem witness_EventsAreBoundedByBytes : (st0 .idle 0 vbat).st = .idle ∧
    ∃ (t : State) (outs : List Output), runBytes (st0 .idle 0 vbat) (stuff vbat) = .next (t, outs) :=
  ⟨rfl, _, _, rfl⟩

end Sys2Proof.Tests
end

/-! # The decoder's state: invariant, ports, totality and noninterference

What a write, an instruction and a cycle do, over the laws above, and at the end the statements of the family of
10_state.md. -/

namespace Sys2Proof.Machine

/-! ### `Write` -/

/-- A write inside the buffer answers a next state (40_frame_decoder.md rule R86). -/
theorem State.write_answers {s : State} (w : Byte) (h : s.cur.val ≤ 8) : ∃ t : State, s.write w = .next t := by
  rcases h.lt_or_eq with short | ninth
  · exact ⟨_, State.write_short w short⟩
  · exact ⟨_, State.write_ninth w ninth⟩

theorem State.write_inputs {s t : State} {w : Byte} (h : s.write w = .next t) : t.inputs = s.inputs := by
  rcases State.write_cases h with ⟨_, rfl⟩ | ⟨_, rfl⟩ <;> rfl

/-- A write leaves every byte but the one at the cursor. -/
theorem State.write_buf_other {s t : State} {w : Byte} (h : s.write w = .next t) {k : Nat} (hk : k < FRAME_LEN)
    (ne : k ≠ s.cur.val) : t.buf[k] = s.buf[k] := by
  rcases State.write_cases h with ⟨lt, rfl⟩ | ⟨eq, rfl⟩
  · exact memWrite_other s.buf w (lt_frameLen lt.le) hk ne
  · exact memWrite_other s.buf w (lt_frameLen eq.le) hk ne

/-- The frame a write puts on the port is the whole buffer it leaves. -/
theorem State.write_framePort {s t : State} {w : Byte} (h : s.write w = .next t) (driven : t.framePort ≠ none) :
    t.framePort = some t.buf := by
  rcases State.write_cases h with ⟨_, rfl⟩ | ⟨_, rfl⟩
  · exact absurd rfl driven
  · rfl

/-! ### `exec` -/

/-- Everything an instruction can do when it answers a next state. The dispatcher family is the last case: it drives the
event port and writes no state element. -/
theorem exec_cases {i : Instr} {s t : State} (h : exec i s = .next t) :
    (i = .idleStart ∧ t = { s.goto .payload with cur := 0 }) ∨
    (i = .payEsc ∧ s.cur.val ≤ 8 ∧ t = s.goto .escape) ∨
    (∃ b w : Byte, (i = .payData b ∧ w = b ∨ i = .escData b ∧ w = unescape b) ∧ s.write w = .next t) ∨
    (∃ v : Bool, i = .reset v ∧ t = { s.goto .idle with cur := 0 }) ∨
    ((i = .hold ∨ ∃ b : Byte, i = .idleSkip b) ∧ t = s.driveNone) ∨
    ∃ e : Option TelemetryEvent, t = s.driveEvent e := by
  cases i with
  | idleStart => exact .inl ⟨rfl, by cases h; rfl⟩
  | payEsc => exact .inr (.inl ⟨rfl, State.armEscape_cases h⟩)
  | payData b => exact .inr (.inr (.inl ⟨b, b, .inl ⟨rfl, rfl⟩, h⟩))
  | escData b => exact .inr (.inr (.inl ⟨b, unescape b, .inr ⟨rfl, rfl⟩, h⟩))
  | reset v => exact .inr (.inr (.inr (.inl ⟨v, rfl, by cases h; rfl⟩)))
  | hold => exact .inr (.inr (.inr (.inr (.inl ⟨.inl rfl, by cases h; rfl⟩))))
  | idleSkip b => exact .inr (.inr (.inr (.inr (.inl ⟨.inr ⟨b, rfl⟩, by cases h; rfl⟩))))
  | _ => exact .inr (.inr (.inr (.inr (.inr ⟨_, by cases h; rfl⟩))))

/-! ### Decoding a byte step -/

/-- The transition of a state and a byte, as 30_encoding.md rule R62 prints it. -/
def transition (st : DecoderState) (b : Byte) : Instr :=
  match st with
  | .idle => if b = START then .idleStart else .idleSkip b
  | .payload => if b = ESC then .payEsc else .payData b
  | .escape => .escData b

theorem decode_selWord (st : DecoderState) (b : Byte) : decode (.sel (selWord st b)) = .ok (transition st b) := by
  cases st <;> simp [decode, decodeSel, transition]

theorem transition_mem (st : DecoderState) (b : Byte) :
    transition st b ∈ [Instr.idleStart, .idleSkip b, .payEsc, .payData b, .escData b] := by
  cases st with
  | idle => by_cases hb : b = START <;> simp [transition, hb]
  | payload => by_cases hb : b = ESC <;> simp [transition, hb]
  | escape => simp [transition]

/-! ### `Dispatch` -/

/-- The trailer is not examined: writing byte 8 leaves the event (41_sensor_dispatcher.md rule R124). -/
theorem dispatch_memWrite_trailer (b : PacketBuffer) (w : Byte) (h : 8 < FRAME_LEN) :
    dispatch (memWrite b 8 w h) = dispatch b := by
  have unchanged (k : Nat) (hk : k < 8) : (memWrite b 8 w h)[k] = b[k] :=
    memWrite_other b w h (hk.trans h) hk.ne
  simp only [dispatch, deviceId_eq, frameType_eq, dataTypeId_eq, value_eq, unchanged, Nat.reduceLT]

/-- The value of an event is `frame[63:32]` (R125). -/
theorem dispatch_value {b : PacketBuffer} {e : TelemetryEvent} (h : dispatch b = some e) :
    e.value = (pack b).extractLsb' 32 32 := by
  have field : e.value = value b := by
    unfold dispatch at h
    split_ifs at h
    split at h <;> cases h
    rfl
  exact field.trans (pack_value b).symm

/-! ### Completing bytes and cycles -/

theorem completes_iff (s : State) (b : Byte) :
    completes s b = true ↔ s.st ≠ .idle ∧ s.cur.val = 8 ∧ (s.st = .payload → b ≠ ESC) := by
  simp [completes, and_assoc, imp_iff_not_or]

/-- What a completing byte leaves: `Idle`, cursor 9, the whole buffer and its event on the ports (R86, R87). -/
theorem stepByte_completed {s t : State} {b : Byte} (h : stepByte s b = .next t) (done : completes s b = true) :
    t.st = .idle ∧ t.cur.val = 9 ∧ t.output = ⟨some t.buf, dispatch t.buf⟩ := by
  obtain ⟨w, last, -, step⟩ := stepByte_completes done
  cases h.symm.trans step
  exact ⟨rfl, congrArg (· + 1) last, rfl⟩

/-- A byte that completes nothing drives no output, and does not leave a state in which a ninth write just ended. -/
theorem stepByte_quiet {s t : State} {b : Byte} (h : stepByte s b = .next t) (more : ¬ completes s b = true) :
    t.output = ⟨none, none⟩ ∧ ¬(s.st ≠ .idle ∧ s.cur.val = 8 ∧ t.st = .idle) := by
  rw [completes_iff] at more
  have short {w : Byte} (inFrame : s.st ≠ .idle) (plain : s.st = .payload → b ≠ ESC) (hw : s.write w = .next t) :
      t.output = ⟨none, none⟩ ∧ t.st = .payload := by
    rcases State.write_cases hw with ⟨_, rfl⟩ | ⟨last, _⟩
    · exact ⟨rfl, rfl⟩
    · exact absurd ⟨inFrame, last, plain⟩ more
  rcases stepByte_cases h with
    ⟨hs, -, rfl⟩ | ⟨hs, -, rfl⟩ | ⟨hs, -, -, rfl⟩ | ⟨hs, hb, hw⟩ | ⟨hs, hw⟩
  · exact ⟨rfl, by simp [hs]⟩
  · exact ⟨rfl, by simp [hs]⟩
  · exact ⟨rfl, by simp⟩
  · obtain ⟨out, inFrame⟩ := short (by simp [hs]) (fun _ => hb) hw
    exact ⟨out, by simp [inFrame]⟩
  · obtain ⟨out, inFrame⟩ := short (by simp [hs]) (by simp [hs]) hw
    exact ⟨out, by simp [inFrame]⟩

/-- The ports of a cycle (10_state.md rules R29 to R31): either an accepted byte completes the frame, or no output is
driven. -/
theorem stepCycle_output_cases {s t : State} {c : CycleInput} (h : stepCycle s c = .next t) :
    (t.output = ⟨some t.buf, dispatch t.buf⟩ ∧
      c.rst = false ∧ c.inValid = true ∧ s.st ≠ .idle ∧ s.cur.val = 8 ∧ t.cur.val = 9 ∧ t.st = .idle) ∨
    (t.output = ⟨none, none⟩ ∧
      ¬(c.rst = false ∧ c.inValid = true ∧ s.st ≠ .idle ∧ s.cur.val = 8 ∧ t.st = .idle)) := by
  rcases stepCycle_cases h with ⟨hr, rfl⟩ | ⟨-, hv, rfl⟩ | ⟨hr, hv, hb⟩
  · exact .inr ⟨rfl, by simp [hr]⟩
  · exact .inr ⟨rfl, by simp [hv]⟩
  · by_cases done : completes s c.inData = true
    · obtain ⟨inFrame, last, -⟩ := (completes_iff s c.inData).mp done
      obtain ⟨idle, full, out⟩ := stepByte_completed hb done
      exact .inl ⟨out, hr, hv, inFrame, last, full, idle⟩
    · obtain ⟨out, notEnded⟩ := stepByte_quiet hb done
      exact .inr ⟨out, fun ⟨_, _, ended⟩ => notEnded ended⟩

/-! ### The invariant -/

/-- Idle ports agree with every state. -/
theorem inv_of_no_output {t : State} (cursor : t.CursorOk) (out : t.output = ⟨none, none⟩) : t.Inv := by
  have frame : t.framePort = none := congrArg Output.frame out
  have event : t.eventPort = none := congrArg Output.event out
  exact ⟨cursor, fun _ => event, fun driven => absurd frame driven⟩

/-- Whatever a write leaves meets the invariant: a short write leaves `cur <= 8`, the ninth one `Idle` with the frame. -/
theorem State.write_inv {s t : State} {w : Byte} (h : s.write w = .next t) : t.Inv := by
  rcases State.write_cases h with ⟨lt, rfl⟩ | ⟨eq, rfl⟩
  · exact inv_of_no_output (fun _ => lt) rfl
  · exact ⟨fun inFrame => absurd rfl inFrame, nofun, fun _ => ⟨rfl, rfl, rfl, congrArg (· + 1) eq⟩⟩

/-- An accepted byte leads to a state of the invariant from any legal cursor, whatever the ports held. -/
theorem stepByte_inv {s t : State} {b : Byte} (cursor : s.CursorOk) (h : stepByte s b = .next t) : t.Inv := by
  rcases stepByte_cases h with
    ⟨-, -, rfl⟩ | ⟨-, -, rfl⟩ | ⟨-, -, inside, rfl⟩ | ⟨-, -, hw⟩ | ⟨-, hw⟩
  · exact inv_of_no_output (fun _ => Nat.zero_le 8) rfl
  · exact inv_of_no_output cursor rfl
  · exact inv_of_no_output (fun _ => inside) rfl
  · exact State.write_inv hw
  · exact State.write_inv hw

theorem stepCycle_inv {s t : State} {c : CycleInput} (cursor : s.CursorOk) (h : stepCycle s c = .next t) : t.Inv := by
  rcases stepCycle_cases h with ⟨-, rfl⟩ | ⟨-, -, rfl⟩ | ⟨-, -, hb⟩
  · exact inv_of_no_output (fun inFrame => absurd rfl inFrame) rfl
  · exact inv_of_no_output cursor rfl
  · exact stepByte_inv cursor hb

/-! ### Totality -/

/-- From a legal cursor every byte is accepted (10_state.md rule R34). -/
theorem stepByte_answers {s : State} (b : Byte) (cursor : s.CursorOk) : ∃ t : State, stepByte s b = .next t := by
  rw [stepByte_eq]
  cases hs : s.st with
  | idle => by_cases hb : b = START <;> simp [hb, execIdleStart, execIdleSkip]
  | payload =>
    have inside : s.cur.val ≤ 8 := cursor (by simp [hs])
    by_cases hb : b = ESC
    · exact ⟨s.goto .escape, by simpa [hb, execPayEsc] using State.armEscape_inside inside⟩
    · simpa [hb, execPayData] using State.write_answers b inside
  | escape => exact State.write_answers (unescape b) (cursor (by simp [hs]))

theorem stepCycle_answers {s : State} (c : CycleInput) (cursor : s.CursorOk) : ∃ t : State, stepCycle s c = .next t := by
  cases hr : c.rst with
  | true => exact ⟨_, stepCycle_reset s hr⟩
  | false =>
    cases hv : c.inValid with
    | false => exact ⟨_, stepCycle_hold s hr hv⟩
    | true => simpa [stepCycle_byte s hr hv] using stepByte_answers c.inData cursor

/-! ### What the outputs can depend on

Outside `Idle` only the bytes below the cursor can still reach an output, inside `Idle` nothing but `st`. Two states that
agree on that much stay so and drive the same outputs. -/

/-- The two buffers hold the same first `n` bytes. -/
def AgreeBelow (n : Nat) (b b' : PacketBuffer) : Prop :=
  ∀ (k : Nat) (hk : k < FRAME_LEN), k < n → b[k] = b'[k]

/-- Two writes of one byte at the same place, just above the part that agrees. -/
theorem AgreeBelow.memWrite {n n' : Nat} {b b' : PacketBuffer} (agree : AgreeBelow n b b') (same : n = n') (w : Byte)
    (h : n < FRAME_LEN) (h' : n' < FRAME_LEN) : AgreeBelow (n + 1) (memWrite b n w h) (memWrite b' n' w h') := by
  subst same
  intro k hk below
  rw [memWrite_getElem b n k w h hk, memWrite_getElem b' n k w h hk]
  split
  · rfl
  · exact agree k hk (by omega)

theorem AgreeBelow.eq_of_full {n : Nat} {b b' : PacketBuffer} (agree : AgreeBelow n b b') (full : n = FRAME_LEN) :
    b = b' :=
  Vector.ext fun k hk => agree k hk (full ▸ hk)

/-- The two states have the same frame in progress, if any. -/
structure SameProgress (s s' : State) : Prop where
  st : s.st = s'.st
  cur : s.st ≠ .idle → s.cur = s'.cur
  written : s.st ≠ .idle → AgreeBelow s.cur.val s.buf s'.buf

theorem sameProgress_of_idle {s s' : State} (h : s.st = .idle) (h' : s'.st = .idle) : SameProgress s s' where
  st := h.trans h'.symm
  cur inFrame := absurd h inFrame
  written inFrame := absurd h inFrame

/-- The same write at the same cursor over the same written bytes. -/
theorem State.write_sameProgress {s s' t t' : State} {w : Byte} (cur : s.cur = s'.cur)
    (written : AgreeBelow s.cur.val s.buf s'.buf) (h : s.write w = .next t) (h' : s'.write w = .next t') :
    SameProgress t t' ∧ t.output = t'.output := by
  have val : s.cur.val = s'.cur.val := congrArg Fin.val cur
  have agree (lt : s.cur.val < FRAME_LEN) := written.memWrite val w lt (val ▸ lt)
  rcases State.write_cases h with ⟨lt, rfl⟩ | ⟨eq, rfl⟩
  · cases h'.symm.trans (State.write_short w (val ▸ lt))
    exact ⟨⟨rfl, fun _ => Fin.ext (congrArg (· + 1) val), fun _ => agree (lt_frameLen lt.le)⟩, rfl⟩
  · cases h'.symm.trans (State.write_ninth w (val ▸ eq))
    have whole := (agree (lt_frameLen eq.le)).eq_of_full (congrArg (· + 1) eq)
    exact ⟨sameProgress_of_idle rfl rfl, by simp [whole]⟩

theorem stepByte_sameProgress {s s' t t' : State} {b : Byte} (same : SameProgress s s')
    (h : stepByte s b = .next t) (h' : stepByte s' b = .next t') : SameProgress t t' ∧ t.output = t'.output := by
  obtain ⟨st, cur, written⟩ := same
  rw [stepByte_eq] at h h'
  rw [← st] at h'
  cases hs : s.st with
  | idle =>
    simp only [hs] at h h'
    split_ifs at h h'
    · cases h; cases h'
      exact ⟨⟨rfl, fun _ => rfl, fun _ _ _ below => absurd below (Nat.not_lt_zero _)⟩, rfl⟩
    · cases h; cases h'
      exact ⟨sameProgress_of_idle hs (st ▸ hs), rfl⟩
  | payload =>
    have inFrame : s.st ≠ .idle := by simp [hs]
    simp only [hs] at h h'
    split_ifs at h h'
    · obtain ⟨-, rfl⟩ := State.armEscape_cases h
      obtain ⟨-, rfl⟩ := State.armEscape_cases h'
      exact ⟨⟨rfl, fun _ => cur inFrame, fun _ => written inFrame⟩, rfl⟩
    · exact State.write_sameProgress (cur inFrame) (written inFrame) h h'
  | escape =>
    have inFrame : s.st ≠ .idle := by simp [hs]
    simp only [hs] at h h'
    exact State.write_sameProgress (cur inFrame) (written inFrame) h h'

/-- After a reset cycle nothing of the two states is left (70_reset_and_hazards.md rule R152). -/
theorem stepCycle_reset_sameProgress {s s' t t' : State} {c : CycleInput} (reset : c.rst = true)
    (h : stepCycle s c = .next t) (h' : stepCycle s' c = .next t') : SameProgress t t' ∧ t.output = t'.output := by
  rw [stepCycle_reset _ reset] at h h'
  cases h; cases h'
  exact ⟨sameProgress_of_idle rfl rfl, rfl⟩

theorem stepCycle_sameProgress {s s' t t' : State} {c : CycleInput} (same : SameProgress s s')
    (h : stepCycle s c = .next t) (h' : stepCycle s' c = .next t') : SameProgress t t' ∧ t.output = t'.output := by
  cases hr : c.rst with
  | true => exact stepCycle_reset_sameProgress hr h h'
  | false =>
    cases hv : c.inValid with
    | false =>
      rw [stepCycle_hold _ hr hv] at h h'
      cases h; cases h'
      exact ⟨⟨same.st, same.cur, same.written⟩, rfl⟩
    | true =>
      rw [stepCycle_byte _ hr hv] at h h'
      exact stepByte_sameProgress same h h'

/-- Two runs that start with the same frame in progress give the same output trace. -/
theorem runCycles_sameProgress {cs : List CycleInput} {s s' t t' : State} {outs outs' : List Output}
    (same : SameProgress s s') (h : runCycles s cs = .next (t, outs)) (h' : runCycles s' cs = .next (t', outs')) :
    outs = outs' := by
  induction cs generalizing s s' outs outs' with
  | nil => cases h; cases h'; rfl
  | cons c cs ih =>
    obtain ⟨u, rest, step, run, rfl⟩ := runCycles_cases h
    obtain ⟨u', rest', step', run', rfl⟩ := runCycles_cases h'
    obtain ⟨next, out⟩ := stepCycle_sameProgress same step step'
    rw [out, ih next run run']

/-! ### The statements -/

/-- Settles O35: every outcome of a cycle meets the invariant as soon as the cursor before it is legal. -/
theorem stepKeepsInvariant : Obligations.StepKeepsInvariant :=
  fun s _ ⟨cursor, _⟩ h => stepCycle_inv (s := s.advance) cursor h

/-- Settles O22, over the six effects an instruction can have. -/
theorem instructionsWriteOnlyTheirOwn : Obligations.InstructionsWriteOnlyTheirOwn := by
  intro i s t h
  rcases exec_cases h with
    ⟨rfl, rfl⟩ | ⟨rfl, -, rfl⟩ | ⟨b, w, writes, hw⟩ | ⟨v, rfl, rfl⟩ | ⟨-, rfl⟩ | ⟨e, rfl⟩
  · simp
  · simp
  · have writing : ∃ b : Byte, i = .payData b ∨ i = .escData b := ⟨b, writes.imp And.left And.left⟩
    exact ⟨State.write_inputs hw, fun _ => writing, fun _ hk ne => State.write_buf_other hw hk ne,
      fun _ => .inr (.inl writing), fun _ => .inr (.inr (.inl writing)),
      fun driven _ => ⟨State.write_framePort hw driven, writing⟩⟩
  · simp
  · simp
  · simp

/-- Settles O31: a cycle either completes a frame or drives nothing. -/
theorem portsFollowCompletion : Obligations.PortsFollowCompletion := by
  intro s t c _ h
  rcases stepCycle_output_cases h with ⟨out, hr, hv, inFrame, last, full, idle⟩ | ⟨out, notEnded⟩
  · rw [out]
    refine ⟨by simp [Output.ports, hr, hv, inFrame, last, full, idle], fun _ => ⟨rfl, fun i hi => pack_byte t.buf hi⟩,
      by simp [Output.ports, Option.isSome_iff_ne_none], fun e he _ => ?_, nofun, fun quiet => ?_, by simp [hr]⟩
    · simp [Output.ports, he, dispatch_value he]
    · have noEvent : dispatch t.buf = none := by simpa [Output.ports] using quiet
      simp [Output.ports, noEvent]
  · rw [out]
    refine ⟨⟨nofun, fun ⟨hr, hv, inFrame, last, _, idle⟩ => ?_⟩, nofun, ⟨nofun, nofun⟩, nofun, fun _ => rfl,
      fun _ => ⟨rfl, rfl⟩, fun _ => rfl⟩
    exact absurd ⟨hr, hv, inFrame, Nat.succ.inj last, idle⟩ notEnded

/-- Settles O32: the ninth write changes byte 8 alone, which `Dispatch` does not read. -/
theorem outputsAreCombinational : Obligations.OutputsAreCombinational := by
  intro s t b h
  constructor
  · intro done
    obtain ⟨w, last, written, step⟩ := stepByte_completes done
    cases h.symm.trans step
    have frame : memWrite s.buf s.cur.val w (lt_frameLen last.le) = s.buf.set 8 w := by simp [memWrite, last]
    refine ⟨w, written, congrArg some frame, ?_⟩
    calc dispatch (memWrite s.buf s.cur.val w _) = dispatch (memWrite s.buf 8 w (by decide)) := congrArg dispatch frame
      _ = dispatch s.buf := dispatch_memWrite_trailer s.buf w (by decide)
  · intro more
    obtain ⟨out, -⟩ := stepByte_quiet h (by simp [more])
    exact ⟨congrArg Output.frame out, congrArg Output.event out⟩

/-- Settles O34, the cursor half of the invariant. -/
theorem bytesKeepCursorInsideBuffer : Obligations.BytesKeepCursorInsideBuffer :=
  fun _ _ _ cursor h => (stepByte_inv cursor h).1

/-- Settles O36: a legal cursor leaves room for every write. -/
theorem stepNeverStops : Obligations.StepNeverStops :=
  fun s cursor => stepCycle_answers (s := s.advance) s.nextInput cursor

/-- Settles O48: two `Idle` states have no frame in progress to differ in. -/
theorem outputsIgnoreInitialBuffer : Obligations.OutputsIgnoreInitialBuffer :=
  fun _ _ _ _ _ _ _ idle idle' h h' => runCycles_sameProgress (sameProgress_of_idle idle idle') h h'

/-- Settles O49: the reset cycle drops the frame in progress, the rest of the run is `runCycles_sameProgress`. -/
theorem resetForgetsThePast : Obligations.ResetForgetsThePast := by
  intro s s' t t' c cs outs outs' reset h h'
  obtain ⟨u, rest, step, run, rfl⟩ := runCycles_cases h
  obtain ⟨u', rest', step', run', rfl⟩ := runCycles_cases h'
  obtain ⟨same, out⟩ := stepCycle_reset_sameProgress reset step step'
  rw [out, runCycles_sameProgress same run run']

/-- Settles O7: the decoder answers `transition`, whose branches are the five conditions. -/
theorem everyStateAndByteHasOneTransition : Obligations.EveryStateAndByteHasOneTransition := by
  intro st b
  rw [decode_selWord]
  have one : ∃ i ∈ [Instr.idleStart, .idleSkip b, .payEsc, .payData b, .escData b],
      (.ok (transition st b) : Except DecodeReject Instr) = .ok i ∧
      ∀ j ∈ [Instr.idleStart, .idleSkip b, .payEsc, .payData b, .escData b],
        (.ok (transition st b) : Except DecodeReject Instr) = .ok j → j = i :=
    ⟨transition st b, transition_mem st b, rfl, fun j _ hj => (Except.ok.inj hj).symm⟩
  refine ⟨?_, ?_, ?_, ?_, ?_, one⟩
  all_goals
    cases st with
    | idle => by_cases hb : b = START <;> simp [transition, hb]
    | payload => by_cases hb : b = ESC <;> simp [transition, hb]
    | escape => simp [transition]

/-- Settles O21, one lemma per kind of cycle. -/
theorem resetBeatsByteAndIdleDataIsIgnored : Obligations.ResetBeatsByteAndIdleDataIsIgnored := by
  intro s v x y
  refine ⟨?_, ?_, stepCycle_byte s rfl rfl⟩
  · rw [stepCycle_reset s rfl, stepCycle_reset s rfl]
    rfl
  · rw [stepCycle_hold s rfl rfl, stepCycle_hold s rfl rfl]

/-- Settles O33: nothing is on the ports and `st` is `Idle`. -/
theorem resetStateIsLegal : Obligations.ResetStateIsLegal :=
  ⟨rfl, rfl, rfl, rfl, inv_of_no_output (fun inFrame => absurd rfl inFrame) rfl⟩

end Sys2Proof.Machine


/-! # The packet buffer: what happens past its end

With `cur = 9` there is no `buf[cur]`. The two operations that need one refuse by name (`State.write_past`,
`State.armEscape_past`), and outside `Idle` every byte runs one of the two. -/

namespace Sys2Proof.Machine

/-- Inside a frame every byte is a write or arms the escape of one, so past the buffer none is accepted
(30_encoding.md rule R77). -/
theorem stepByte_past {s : State} (b : Byte) (inFrame : s.st ≠ .idle) (past : ¬ s.cur.val ≤ 8) :
    stepByte s b = .refused .cursorPastBuffer := by
  rw [stepByte_eq]
  cases hs : s.st with
  | idle => exact absurd hs inFrame
  | payload =>
    by_cases hb : b = ESC
    · simpa [hb, execPayEsc] using State.armEscape_past past
    · simpa [hb, execPayData] using State.write_past b past
  | escape => exact State.write_past (unescape b) past

/-- Settles O18: the three transitions are `State.write` and `State.armEscape`, which refuse past the buffer. -/
theorem writePastBufferIsRefused : Obligations.WritePastBufferIsRefused := by
  intro s b full
  have past : ¬ s.cur.val ≤ 8 := by omega
  exact ⟨State.write_past b past, State.write_past (unescape b) past, State.armEscape_past past,
    fun inFrame => stepByte_past b inFrame past⟩

end Sys2Proof.Machine


/-! # The encodings: decoder, encoder and opcode table

Every instruction has one of eleven forms, and every word is the encoding of a well-formed instruction or one of the
reserved words. From these two facts follow the statements of the family of 30_encoding.md, and those on steps that run a
decoded word. -/

namespace Sys2Proof

open Machine

/-! ### The dispatch instructions as one form -/

theorem dispatchOf_wellFormed (k : TelemetryKind) (v : Word) (t : Byte) : (Instr.dispatchOf k v t).WellFormed := by
  cases k <;> rfl

theorem encode_dispatchOf (k : TelemetryKind) (v : Word) (t : Byte) :
    encode (Instr.dispatchOf k v t) = .frame (frameWordOf DEVICE_ID FRAME_TYPE (sensorId k) v t) := by
  cases k <;> rfl

/-- Case analysis on an instruction with the sixteen dispatch rows as one case (30_encoding.md rule R73). -/
theorem Instr.casesByForm {motive : Instr → Prop}
    (idleStart : motive .idleStart) (idleSkip : ∀ b, motive (.idleSkip b))
    (payEsc : motive .payEsc) (payData : ∀ b, motive (.payData b)) (escData : ∀ b, motive (.escData b))
    (dispatch : ∀ k v t, motive (.dispatchOf k v t))
    (dropUnknown : ∀ id v t, motive (.dropUnknown id v t)) (dropType : ∀ ty id v t, motive (.dropType ty id v t))
    (dropDevice : ∀ dev ty id v t, motive (.dropDevice dev ty id v t))
    (reset : ∀ v, motive (.reset v)) (hold : motive .hold) (i : Instr) : motive i := by
  cases i with
  | idleStart => exact idleStart
  | idleSkip b => exact idleSkip b
  | payEsc => exact payEsc
  | payData b => exact payData b
  | escData b => exact escData b
  | dispatchFuel v t => exact dispatch .fuel v t
  | dispatchGps v t => exact dispatch .gps v t
  | dispatchVbat v t => exact dispatch .vbat v t
  | dispatchCellVoltage v t => exact dispatch .cellVoltage v t
  | dispatchCurrent v t => exact dispatch .current v t
  | dispatchHeading v t => exact dispatch .heading v t
  | dispatchRssi v t => exact dispatch .rssi v t
  | dispatchFlymode v t => exact dispatch .flymode v t
  | dispatchGpsState v t => exact dispatch .gpsState v t
  | dispatchAltitude v t => exact dispatch .altitude v t
  | dispatchGalt v t => exact dispatch .galt v t
  | dispatchDistance v t => exact dispatch .distance v t
  | dispatchGspeed v t => exact dispatch .gspeed v t
  | dispatchPitch v t => exact dispatch .pitch v t
  | dispatchRoll v t => exact dispatch .roll v t
  | dispatchVspeed v t => exact dispatch .vspeed v t
  | dropUnknown id v t => exact dropUnknown id v t
  | dropType ty id v t => exact dropType ty id v t
  | dropDevice dev ty id v t => exact dropDevice dev ty id v t
  | reset v => exact reset v
  | hold => exact hold

/-! ### Well-formedness of the fall-back rows -/

@[simp] theorem idleSkip_wellFormed (b : Byte) : (Instr.idleSkip b).WellFormed ↔ b ≠ START := bne_iff_ne

@[simp] theorem payData_wellFormed (b : Byte) : (Instr.payData b).WellFormed ↔ b ≠ ESC := bne_iff_ne

@[simp] theorem dropUnknown_wellFormed (id : Half) (v : Word) (t : Byte) :
    (Instr.dropUnknown id v t).WellFormed ↔ lookup id = none := Option.isNone_iff_eq_none

@[simp] theorem dropType_wellFormed (ty : Byte) (id : Half) (v : Word) (t : Byte) :
    (Instr.dropType ty id v t).WellFormed ↔ ty ≠ FRAME_TYPE := bne_iff_ne

@[simp] theorem dropDevice_wellFormed (dev ty : Byte) (id : Half) (v : Word) (t : Byte) :
    (Instr.dropDevice dev ty id v t).WellFormed ↔ dev ≠ DEVICE_ID := bne_iff_ne

/-! ### What `decodeFrame` answers -/

theorem decodeFrame_device {w : FrameWord} (hd : w.deviceId ≠ DEVICE_ID) :
    decodeFrame w = .dropDevice w.deviceId w.frameType w.dataTypeId w.value w.trailer := by
  simp [decodeFrame, hd]

theorem decodeFrame_type {w : FrameWord} (hd : w.deviceId = DEVICE_ID) (ht : w.frameType ≠ FRAME_TYPE) :
    decodeFrame w = .dropType w.frameType w.dataTypeId w.value w.trailer := by
  simp [decodeFrame, hd, ht]

theorem decodeFrame_unknown {w : FrameWord} (hd : w.deviceId = DEVICE_ID) (ht : w.frameType = FRAME_TYPE)
    (hi : lookup w.dataTypeId = none) : decodeFrame w = .dropUnknown w.dataTypeId w.value w.trailer := by
  simp [decodeFrame, hd, ht, hi]

theorem decodeFrame_known {w : FrameWord} {k : TelemetryKind} (hd : w.deviceId = DEVICE_ID)
    (ht : w.frameType = FRAME_TYPE) (hi : lookup w.dataTypeId = some k) :
    decodeFrame w = .dispatchOf k w.value w.trailer := by
  simp [decodeFrame, hd, ht, hi]

/-! ### Every word is an encoding or reserved -/

theorem decode_reserved (b : Byte) : decode (.sel (0b11#2 ++ b)) = .error .reservedState := by
  have state : (0b11#2 ++ b).extractLsb' 8 2 = 0b11#2 := (extract_high 0b11#2 b (by omega)).trans (by decide)
  have noState : DecoderState.ofCode 0b11#2 = none := by decide
  simp [decode, decodeSel, state, noState]

theorem decode_byteStep : decode (.ctrl 0b01#2) = .error .byteStep := by decide

/-- The codes of the three states and the reserved one are all there are (rule R77). -/
theorem selWord_or_reserved (w : BitVec 10) : (∃ st b, selWord st b = w) ∨ ∃ b : Byte, w = 0b11#2 ++ b := by
  have parts : w.extractLsb' 8 2 ++ (w.extractLsb' 0 8 : Byte) = w :=
    (extract_append w 0 2 8).trans BitVec.extractLsb'_eq_self
  have codes : ∀ c : BitVec 2, c = DecoderState.idle.code ∨ c = DecoderState.payload.code ∨
      c = DecoderState.escape.code ∨ c = 0b11#2 := by decide
  rcases codes (w.extractLsb' 8 2) with h | h | h | h <;> rw [h] at parts
  · exact .inl ⟨.idle, _, parts⟩
  · exact .inl ⟨.payload, _, parts⟩
  · exact .inl ⟨.escape, _, parts⟩
  · exact .inr ⟨_, parts.symm⟩

theorem ctrl_cases (w : BitVec 2) : (∃ v, w = BitVec.ofBool true ++ BitVec.ofBool v) ∨ w = 0b00#2 ∨ w = 0b01#2 := by
  revert w
  decide

/-- A transition is a well-formed instruction, and its word is the one that selects it (rule R62). -/
theorem transition_encodes (st : DecoderState) (b : Byte) :
    (transition st b).WellFormed ∧ encode (transition st b) = .sel (selWord st b) := by
  cases st with
  | idle =>
    by_cases hb : b = START
    · subst hb; exact ⟨rfl, rfl⟩
    · rw [transition, if_neg hb]; exact ⟨(idleSkip_wellFormed b).mpr hb, rfl⟩
  | payload =>
    by_cases hb : b = ESC
    · subst hb; exact ⟨rfl, rfl⟩
    · rw [transition, if_neg hb]; exact ⟨(payData_wellFormed b).mpr hb, rfl⟩
  | escape => exact ⟨rfl, rfl⟩

/-- The dispatcher operation of a frame is well-formed, and its word is that frame: what a test has fixed stands in the
table, what it leaves open is an operand (rules R73, R78). -/
theorem decodeFrame_encodes (w : FrameWord) :
    (decodeFrame w).WellFormed ∧ encode (decodeFrame w) = .frame w := by
  have fields := frameWordOf_fields w
  by_cases hd : w.deviceId = DEVICE_ID
  · by_cases ht : w.frameType = FRAME_TYPE
    · rw [hd, ht] at fields
      cases hi : lookup w.dataTypeId with
      | none =>
        rw [decodeFrame_unknown hd ht hi]
        exact ⟨(dropUnknown_wellFormed _ _ _).mpr hi, congrArg InstrWord.frame fields⟩
      | some k =>
        rw [decodeFrame_known hd ht hi, encode_dispatchOf, sensorId_of_lookup hi]
        exact ⟨dispatchOf_wellFormed k _ _, congrArg InstrWord.frame fields⟩
    · rw [hd] at fields
      rw [decodeFrame_type hd ht]
      exact ⟨(dropType_wellFormed _ _ _ _).mpr ht, congrArg InstrWord.frame fields⟩
  · rw [decodeFrame_device hd]
    exact ⟨(dropDevice_wellFormed _ _ _ _ _).mpr hd, congrArg InstrWord.frame fields⟩

/-! ### Decoder and encoder are inverse -/

/-- Settles O2, form by form: a selector word decodes to the transition of its state and byte, the fields of a frame word
are the operands it was made of. -/
theorem decodeInvertsEncode : Obligations.DecodeInvertsEncode := by
  intro i wf
  cases i using Instr.casesByForm with
  | idleStart => exact decode_selWord .idle START
  | idleSkip b =>
    have plain : transition .idle b = .idleSkip b := if_neg ((idleSkip_wellFormed b).mp wf)
    exact (decode_selWord .idle b).trans (congrArg Except.ok plain)
  | payEsc => exact decode_selWord .payload ESC
  | payData b =>
    have plain : transition .payload b = .payData b := if_neg ((payData_wellFormed b).mp wf)
    exact (decode_selWord .payload b).trans (congrArg Except.ok plain)
  | escData b => exact decode_selWord .escape b
  | dispatch k v t =>
    rw [encode_dispatchOf, decode, decodeFrame_known (k := k)] <;> simp
  | dropUnknown id v t =>
    have unknown : lookup id = none := (dropUnknown_wellFormed id v t).mp wf
    rw [encode, decode, decodeFrame_unknown] <;> simp [unknown]
  | dropType ty id v t =>
    have ne : ty ≠ FRAME_TYPE := (dropType_wellFormed ty id v t).mp wf
    rw [encode, decode, decodeFrame_type] <;> simp [ne]
  | dropDevice dev ty id v t =>
    have ne : dev ≠ DEVICE_ID := (dropDevice_wellFormed dev ty id v t).mp wf
    rw [encode, decode, decodeFrame_device] <;> simp [ne]
  | reset v => exact decode_reset v
  | hold => exact decode_hold

/-- Settles O3: a decodable word is a selector word of one of the three states, a frame word, or one of the control words
of `RESET` and `HOLD`. -/
theorem encodeInvertsDecode : Obligations.EncodeInvertsDecode := by
  intro w i h
  cases w with
  | sel w =>
    rcases selWord_or_reserved w with ⟨st, b, rfl⟩ | ⟨b, rfl⟩
    · cases (decode_selWord st b).symm.trans h
      exact transition_encodes st b
    · cases (decode_reserved b).symm.trans h
  | frame w =>
    cases h
    exact decodeFrame_encodes w
  | ctrl w =>
    rcases ctrl_cases w with ⟨v, rfl⟩ | rfl | rfl
    · cases (decode_reset v).symm.trans h
      exact ⟨rfl, rfl⟩
    · cases decode_hold.symm.trans h
      exact ⟨rfl, rfl⟩
    · cases decode_byteStep.symm.trans h

/-- Settles O6: every word of another form decodes. -/
theorem onlyReservedWordsAreRejected : Obligations.OnlyReservedWordsAreRejected := by
  intro w e
  constructor
  · intro h
    cases w with
    | sel w =>
      rcases selWord_or_reserved w with ⟨st, b, rfl⟩ | ⟨b, rfl⟩
      · cases (decode_selWord st b).symm.trans h
      · cases (decode_reserved b).symm.trans h
        exact .inl ⟨rfl, b, rfl⟩
    | frame w => cases h
    | ctrl w =>
      rcases ctrl_cases w with ⟨v, rfl⟩ | rfl | rfl
      · cases (decode_reset v).symm.trans h
      · cases decode_hold.symm.trans h
      · cases decode_byteStep.symm.trans h
        exact .inr ⟨rfl, rfl⟩
  · rintro (⟨rfl, b, rfl⟩ | ⟨rfl, rfl⟩)
    · exact decode_reserved b
    · exact decode_byteStep

/-- To read a word, name the instruction it encodes. -/
theorem decode_of_encode {i : Instr} {w : InstrWord} (wf : i.WellFormed) (h : encode i = w) : decode w = .ok i :=
  h ▸ decodeInvertsEncode i wf

/-- Settles O1: the eleven words are encodings. -/
theorem knownWordsDecode : Obligations.KnownWordsDecode :=
  ⟨decode_of_encode rfl rfl, decode_of_encode rfl rfl, decode_of_encode rfl rfl, decode_of_encode rfl rfl,
    decode_of_encode rfl rfl, decode_of_encode rfl rfl, decode_of_encode rfl rfl, decode_of_encode rfl rfl,
    decode_of_encode rfl rfl, decode_of_encode rfl rfl, decode_of_encode rfl rfl⟩

/-- Settles O5, state by state with the reserved code apart; a state leaves 256 bytes to match against the rows. -/
theorem disjointRowsNameTheTransition : Obligations.DisjointRowsNameTheTransition := by
  intro w
  rcases selWord_or_reserved w with ⟨st, b, rfl⟩ | ⟨b, rfl⟩
  · rw [show decodeSel (selWord st b) = .ok (transition st b) from decode_selWord st b]
    cases st <;> revert b <;> decide
  · rw [show decodeSel (0b11#2 ++ b) = .error .reservedState from decode_reserved b]
    revert b
    decide

/-! ### The kind codes -/

/-- The kind a port code stands for: the row of the sensor table with that number (rule R75). -/
def TelemetryKind.ofCode (c : BitVec 4) : TelemetryKind := (SENSOR_TABLE[c.toNat]'c.isLt).kind

theorem TelemetryKind.code_ofCode (c : BitVec 4) : (ofCode c).code = c := by
  revert c
  decide

theorem TelemetryKind.ofCode_code (k : TelemetryKind) : ofCode k.code = k := by
  cases k <;> rfl

/-- Settles O8: `TelemetryKind.ofCode` is the inverse of the codes. -/
theorem kindCodesAreTableOrder : Obligations.KindCodesAreTableOrder := by
  refine ⟨rfl, fun c => ⟨.ofCode c, TelemetryKind.code_ofCode c, fun k' h => ?_⟩⟩
  rw [← h, TelemetryKind.ofCode_code]

end Sys2Proof


/-! # The opcode table

What it means for a word to match each row of the table, and that the decoder answers the matching row of lowest priority
number (30_encoding.md rule R81). -/

namespace Sys2Proof

open Machine

/-- Two words of `n` bits are the same 72 bits only if they are the same. -/
theorem setWidth_inj {n : Nat} (h : n ≤ 72) {x y : BitVec n} : x.setWidth 72 = y.setWidth 72 ↔ x = y := by
  refine ⟨fun eq => ?_, congrArg _⟩
  have back := congrArg (BitVec.setWidth n) eq
  simpa [BitVec.setWidth_setWidth_of_le _ h] using back

theorem append_inj {m n : Nat} {x x' : BitVec m} {y y' : BitVec n} : x ++ y = x' ++ y' ↔ x = x' ∧ y = y' := by
  refine ⟨fun eq => ⟨?_, ?_⟩, fun ⟨hx, hy⟩ => hx ▸ hy ▸ rfl⟩
  · simpa only [BitVec.extractLsb'_append_eq_left] using congrArg (BitVec.extractLsb' n m) eq
  · simpa only [BitVec.setWidth_append_eq_right] using congrArg (BitVec.setWidth n) eq

theorem DecoderState.code_inj {st st' : DecoderState} : st.code = st'.code ↔ st = st' := by
  cases st <;> cases st' <;> decide

theorem sensorId_inj {k k' : TelemetryKind} : sensorId k = sensorId k' ↔ k = k' :=
  ⟨fun h => Option.some.inj (by rw [← lookup_sensorId k, h, lookup_sensorId]), congrArg sensorId⟩

/-! ### The rows by shape -/

/-- A `SEL` row that names a state and a byte. -/
def byteRow (mnemonic : String) (st : DecoderState) (b : Byte) : OpcodeRow :=
  ⟨mnemonic, .sel, 0x3FF#72, (selWord st b).setWidth 72, 0⟩

/-- A `SEL` row that names a state alone. -/
def stateRow (mnemonic : String) (st : DecoderState) (priority : Nat) : OpcodeRow :=
  ⟨mnemonic, .sel, 0x300#72, (selWord st 0#8).setWidth 72, priority⟩

@[simp] theorem byteRow_mnemonic (m : String) (st : DecoderState) (b : Byte) : (byteRow m st b).mnemonic = m := rfl
@[simp] theorem byteRow_priority (m : String) (st : DecoderState) (b : Byte) : (byteRow m st b).priority = 0 := rfl
@[simp] theorem stateRow_mnemonic (m : String) (st : DecoderState) (p : Nat) : (stateRow m st p).mnemonic = m := rfl
@[simp] theorem stateRow_priority (m : String) (st : DecoderState) (p : Nat) : (stateRow m st p).priority = p := rfl

/-- The `FRAME` row of a kind (rule R73). -/
def kindRow (k : TelemetryKind) : OpcodeRow :=
  ⟨(Instr.dispatchOf k 0#32 0#8).mnemonic, .frame, 0xFFFFFFFF#72, (headerOf k).setWidth 72, 0⟩

def dropUnknownRow : OpcodeRow :=
  ⟨"DROP_UNKNOWN", .frame, 0xFFFF#72, (FRAME_TYPE ++ DEVICE_ID : BitVec 16).setWidth 72, 1⟩

def dropTypeRow : OpcodeRow := ⟨"DROP_TYPE", .frame, 0xFF#72, DEVICE_ID.setWidth 72, 2⟩

def dropDeviceRow : OpcodeRow := ⟨"DROP_DEVICE", .frame, 0#72, 0#72, 3⟩

theorem kindRow_mnemonic (k : TelemetryKind) (v : Word) (t : Byte) :
    (kindRow k).mnemonic = (Instr.dispatchOf k v t).mnemonic := by
  cases k <;> rfl

@[simp] theorem kindRow_priority (k : TelemetryKind) : (kindRow k).priority = 0 := rfl
@[simp] theorem dropUnknownRow_priority : dropUnknownRow.priority = 1 := rfl
@[simp] theorem dropTypeRow_priority : dropTypeRow.priority = 2 := rfl
@[simp] theorem dropDeviceRow_priority : dropDeviceRow.priority = 3 := rfl

theorem selRows_eq : selRows =
    [byteRow "IDLE_START" .idle START, byteRow "PAY_ESC" .payload ESC, stateRow "ESC_DATA" .escape 0,
      stateRow "IDLE_SKIP" .idle 1, stateRow "PAY_DATA" .payload 1] := by
  decide

theorem frameRows_eq : frameRows =
    SENSOR_TABLE.map (fun r => kindRow r.kind) ++ [dropUnknownRow, dropTypeRow, dropDeviceRow] := by
  decide

theorem mem_frameRows {r : OpcodeRow} :
    r ∈ frameRows ↔ (∃ k, r = kindRow k) ∨ r = dropUnknownRow ∨ r = dropTypeRow ∨ r = dropDeviceRow := by
  have everyKind (k : TelemetryKind) : ∃ row ∈ SENSOR_TABLE, row.kind = k := by
    cases k <;> decide
  simp only [frameRows_eq, List.mem_append, List.mem_map, List.mem_cons, List.not_mem_nil, or_false]
  refine or_congr_left ⟨fun ⟨row, _, eq⟩ => ⟨row.kind, eq.symm⟩, fun ⟨k, eq⟩ => ?_⟩
  obtain ⟨row, mem, rfl⟩ := everyKind k
  exact ⟨row, mem, eq.symm⟩

/-! ### Which words match a row -/

@[simp] theorem byteRow_accepts (m : String) (st : DecoderState) (b b' : Byte) (c : BitVec 2) :
    (byteRow m st b).accepts (.sel (c ++ b')) = true ↔ c = st.code ∧ b' = b := by
  have masked := and_low_mask ((c ++ b').setWidth 72) 10
  rw [BitVec.extractLsb'_setWidth_of_le (by omega), BitVec.extractLsb'_eq_self] at masked
  have same : (byteRow m st b).accepts (.sel (c ++ b')) = true ↔ (c ++ b').setWidth 72 = (selWord st b).setWidth 72 := by
    rw [← masked]
    simp [OpcodeRow.accepts, byteRow, InstrWord.format, InstrWord.bits]
  exact same.trans ((setWidth_inj (by omega)).trans append_inj)

/-- The state bits of a selector word. -/
theorem and_mask_state (c : BitVec 2) (b : Byte) :
    (c ++ b).setWidth 72 &&& 0x300#72 = (c ++ 0#8).setWidth 72 := by
  revert c b
  decide

@[simp] theorem stateRow_accepts (m : String) (st : DecoderState) (p : Nat) (b : Byte) (c : BitVec 2) :
    (stateRow m st p).accepts (.sel (c ++ b)) = true ↔ c = st.code := by
  have same : (stateRow m st p).accepts (.sel (c ++ b)) = true ↔
      (c ++ 0#8).setWidth 72 = (selWord st 0#8).setWidth 72 := by
    rw [← and_mask_state c b]
    simp [OpcodeRow.accepts, stateRow, InstrWord.format, InstrWord.bits]
  exact same.trans ((setWidth_inj (by omega)).trans (BitVec.append_left_inj _))

@[simp] theorem kindRow_accepts (k : TelemetryKind) (w : FrameWord) :
    (kindRow k).accepts (.frame w) = true ↔
      w.dataTypeId = sensorId k ∧ w.frameType = FRAME_TYPE ∧ w.deviceId = DEVICE_ID := by
  have same : (kindRow k).accepts (.frame w) = true ↔ w.header.setWidth 72 = (headerOf k).setWidth 72 := by
    rw [← and_mask_header]
    simp [OpcodeRow.accepts, kindRow, InstrWord.format, InstrWord.bits]
  rw [same, setWidth_inj (by omega), header_eq, headerOf]
  exact append_inj.trans ((and_congr_left' append_inj).trans and_assoc)

@[simp] theorem dropUnknownRow_accepts (w : FrameWord) :
    dropUnknownRow.accepts (.frame w) = true ↔ w.frameType = FRAME_TYPE ∧ w.deviceId = DEVICE_ID := by
  have same : dropUnknownRow.accepts (.frame w) = true ↔
      (w.frameType ++ w.deviceId).setWidth 72 = (FRAME_TYPE ++ DEVICE_ID).setWidth 72 := by
    rw [← and_mask_accept]
    simp [OpcodeRow.accepts, dropUnknownRow, InstrWord.format, InstrWord.bits]
  exact same.trans ((setWidth_inj (by omega)).trans append_inj)

@[simp] theorem dropTypeRow_accepts (w : FrameWord) :
    dropTypeRow.accepts (.frame w) = true ↔ w.deviceId = DEVICE_ID := by
  have same : dropTypeRow.accepts (.frame w) = true ↔ w.deviceId.setWidth 72 = DEVICE_ID.setWidth 72 := by
    rw [← and_mask_device]
    simp [OpcodeRow.accepts, dropTypeRow, InstrWord.format, InstrWord.bits]
  exact same.trans (setWidth_inj (by omega))

@[simp] theorem dropDeviceRow_accepts (w : FrameWord) : dropDeviceRow.accepts (.frame w) = true := by
  simp [OpcodeRow.accepts, dropDeviceRow, InstrWord.format, InstrWord.bits]

/-! ### The rows of a format -/

/-- The rows of opcode_table.json of one format. -/
def rowsOf (f : Format) : List OpcodeRow :=
  match f with
  | .sel => selRows
  | .frame => frameRows
  | .ctrl => ctrlRows

theorem mem_opcodeTable {r : OpcodeRow} : r ∈ opcodeTable ↔ ∃ f, r ∈ rowsOf f := by
  simp only [opcodeTable, List.mem_append]
  constructor
  · rintro ((h | h) | h)
    exacts [⟨.sel, h⟩, ⟨.frame, h⟩, ⟨.ctrl, h⟩]
  · rintro ⟨_ | _ | _, h⟩
    exacts [.inl (.inl h), .inl (.inr h), .inr h]

/-- A row that matches a word is a row of the word's format. -/
theorem mem_rowsOf {r : OpcodeRow} {w : InstrWord} (mem : r ∈ opcodeTable) (h : r.accepts w = true) :
    r ∈ rowsOf w.format := by
  have own : ∀ r ∈ opcodeTable, r ∈ rowsOf r.format := by decide
  have format : r.format = w.format := by
    simp only [OpcodeRow.accepts, Bool.and_eq_true, beq_iff_eq] at h
    exact h.1
  exact format ▸ own r mem

/-- Of `rows`, `r` is the one of lowest priority number that matches the word. -/
def Selects (rows : List OpcodeRow) (w : InstrWord) (r : OpcodeRow) : Prop :=
  r ∈ rows ∧ r.accepts w = true ∧ ∀ r' ∈ rows, r'.accepts w = true → r' = r ∨ r.priority < r'.priority

/-- The rows of other formats do not matter. -/
theorem Selects.of_format {w : InstrWord} {r : OpcodeRow} (h : Selects (rowsOf w.format) w r) :
    Selects opcodeTable w r := by
  obtain ⟨mem, accepts, lowest⟩ := h
  exact ⟨mem_opcodeTable.mpr ⟨_, mem⟩, accepts, fun r' mem' h' => lowest r' (mem_rowsOf mem' h') h'⟩

/-! ### The row of each format the decoder answers -/

theorem selects_transition (st : DecoderState) (b : Byte) :
    ∃ r, r.mnemonic = (transition st b).mnemonic ∧ Selects selRows (.sel (selWord st b)) r := by
  rw [selRows_eq, selWord]
  cases st with
  | idle =>
    by_cases hb : b = START
    · exact ⟨byteRow "IDLE_START" .idle START, by simp [transition, hb, Instr.mnemonic],
        by simp [Selects, hb, DecoderState.code_inj]⟩
    · exact ⟨stateRow "IDLE_SKIP" .idle 1, by simp [transition, hb, Instr.mnemonic],
        by simp [Selects, hb, DecoderState.code_inj]⟩
  | payload =>
    by_cases hb : b = ESC
    · exact ⟨byteRow "PAY_ESC" .payload ESC, by simp [transition, hb, Instr.mnemonic],
        by simp [Selects, hb, DecoderState.code_inj]⟩
    · exact ⟨stateRow "PAY_DATA" .payload 1, by simp [transition, hb, Instr.mnemonic],
        by simp [Selects, hb, DecoderState.code_inj]⟩
  | escape => exact ⟨stateRow "ESC_DATA" .escape 0, rfl, by simp [Selects, DecoderState.code_inj]⟩

/-- The rows of the kinds make all three tests of R73, the drops two, one and none of them, in that order. So the first test
that fails leaves the row that makes only the tests before it, and the rows after that one. -/
theorem selects_decodeFrame (w : FrameWord) :
    ∃ r, r.mnemonic = (decodeFrame w).mnemonic ∧ Selects frameRows (.frame w) r := by
  by_cases hd : w.deviceId = DEVICE_ID
  · by_cases ht : w.frameType = FRAME_TYPE
    · cases hi : lookup w.dataTypeId with
      | none =>
        have noKind (k : TelemetryKind) : w.dataTypeId ≠ sensorId k := fun id => by simp [id] at hi
        rw [decodeFrame_unknown hd ht hi]
        exact ⟨dropUnknownRow, rfl, by simp [Selects, mem_frameRows, or_imp, forall_and, hd, ht, noKind]⟩
      | some k =>
        have id : w.dataTypeId = sensorId k := (sensorId_of_lookup hi).symm
        rw [decodeFrame_known hd ht hi]
        exact ⟨kindRow k, kindRow_mnemonic k _ _,
          by simp [Selects, mem_frameRows, or_imp, forall_and, hd, ht, id, sensorId_inj]⟩
    · rw [decodeFrame_type hd ht]
      exact ⟨dropTypeRow, rfl, by simp [Selects, mem_frameRows, or_imp, forall_and, hd, ht]⟩
  · rw [decodeFrame_device hd]
    exact ⟨dropDeviceRow, rfl, by simp [Selects, mem_frameRows, or_imp, forall_and, hd]⟩

theorem reserved_matches_no_row (b : Byte) : ∀ r ∈ selRows, r.accepts (.sel (0b11#2 ++ b)) = false := by
  have noState : ∀ st : DecoderState, 3#2 ≠ st.code := by
    intro st
    cases st <;> decide
  simp [selRows_eq, ← Bool.not_eq_true, noState]

/-- Settles O4: the decoder's row in each format, and the rejected words one by one. -/
theorem lowestPriorityRowIsDecoded : Obligations.LowestPriorityRowIsDecoded := by
  constructor
  · intro w i h
    suffices ∃ r, r.mnemonic = i.mnemonic ∧ Selects (rowsOf w.format) w r by
      obtain ⟨r, name, selects⟩ := this
      obtain ⟨mem, accepts, lowest⟩ := selects.of_format
      exact ⟨r, mem, name, accepts, lowest⟩
    cases w with
    | sel w =>
      rcases selWord_or_reserved w with ⟨st, b, rfl⟩ | ⟨b, rfl⟩
      · cases (decode_selWord st b).symm.trans h
        exact selects_transition st b
      · cases (decode_reserved b).symm.trans h
    | frame w =>
      cases h
      exact selects_decodeFrame w
    | ctrl w =>
      rcases ctrl_cases w with ⟨v, rfl⟩ | rfl | rfl
      · cases (decode_reset v).symm.trans h
        exact ⟨⟨"RESET", .ctrl, 0x2#72, 0x2#72, 0⟩, rfl, by unfold Selects; cases v <;> decide⟩
      · cases decode_hold.symm.trans h
        exact ⟨⟨"HOLD", .ctrl, 0x3#72, 0x0#72, 0⟩, rfl, by unfold Selects; decide⟩
      · cases decode_byteStep.symm.trans h
  · intro w e h r mem
    by_contra matched
    have own := mem_rowsOf mem (by simpa using matched)
    rcases (onlyReservedWordsAreRejected w e).mp h with ⟨-, b, rfl⟩ | ⟨-, rfl⟩
    · exact matched (reserved_matches_no_row b r own)
    · have unmatched : ∀ r ∈ ctrlRows, r.accepts (.ctrl 0b01#2) = false := by decide
      exact matched (unmatched r own)

end Sys2Proof


/-! # Steps that run a decoded word

A step runs what its word decodes to; a completing step runs, besides, the dispatcher operation its frame decodes to; a
staged word is the word of the next step. -/

namespace Sys2Proof.Machine

/-! ### The instruction of a step -/

theorem stepByte_transition (s : State) (b : Byte) : stepByte s b = exec (transition s.st b) s :=
  runWord_of_decode (decode_selWord s.st b) s

theorem step_of_inputs {s : State} {c : CycleInput} {cs : List CycleInput} (h : s.inputs = c :: cs) :
    step s = runWord (fetchWord s.st c) { s with inputs := cs } := by
  have moved : s.advance = { s with inputs := cs } := by simp [State.advance, h]
  rw [step_eq, State.nextInput_of_cons h, moved]
  rfl

theorem State.advance_of_nil {s : State} (h : s.inputs = []) : s.advance = s := by
  obtain ⟨_, _, _, _, _, _⟩ := s
  cases h
  rfl

/-- Settles O9: the step decodes the word its cycle selects. -/
theorem stepRunsDecodedInstruction : Obligations.StepRunsDecodedInstruction := by
  refine ⟨fun s c cs i h => ⟨fun hr hv decoded => ?_, fun noByte decoded => ?_⟩, fun s h => ?_⟩
  · have word : fetchWord s.st c = .sel (selWord s.st c.inData) := by simp [fetchWord, hr, hv]
    rw [step_of_inputs h, word, runWord_of_decode decoded]
  · have word : fetchWord s.st c = .ctrl (ctrlWord c) := by rcases noByte with h | h <;> simp [fetchWord, h]
    rw [step_of_inputs h, word, runWord_of_decode decoded]
  · rw [step_eq, State.nextInput_of_nil h, State.advance_of_nil h]
    exact stepCycle_hold s rfl rfl

/-! ### The dispatcher operation of a frame -/

theorem exec_dispatchOf (k : TelemetryKind) (v : Word) (t : Byte) (s : State) :
    exec (Instr.dispatchOf k v t) s = .next (s.driveEvent (some ⟨k, v⟩)) := by
  cases k <;> rfl

/-- The operation a frame word decodes to drives what `Dispatch` gives the frame's bytes: both make the same three tests
(41_sensor_dispatcher.md rule R104). -/
theorem exec_decodeFrame_pack (b : PacketBuffer) (s : State) :
    exec (decodeFrame (pack b)) s = .next (s.driveEvent (dispatch b)) := by
  unfold decodeFrame dispatch
  rw [pack_deviceId, pack_frameType, pack_dataTypeId, pack_value]
  split_ifs
  · rfl
  · rfl
  · cases lookup (dataTypeId b) with
    | none => rfl
    | some k => exact exec_dispatchOf k _ _ s

theorem State.driveEvent_cleared {t : State} {e : Option TelemetryEvent} (h : t.eventPort = e) :
    ({ t with eventPort := none } : State).driveEvent e = t := by
  subst h
  rfl

/-- Settles O10: the event port of the completing step is `Dispatch` of the frame. -/
theorem completingStepRunsFrameInstruction : Obligations.CompletingStepRunsFrameInstruction := by
  intro s t b f h framed
  by_cases done : completes s b = true
  · obtain ⟨-, -, out⟩ := stepByte_completed h done
    have frame : t.framePort = some t.buf := congrArg Output.frame out
    have event : t.eventPort = dispatch t.buf := congrArg Output.event out
    cases framed.symm.trans frame
    refine ⟨decodeFrame (pack t.buf), rfl, ?_⟩
    rw [exec_decodeFrame_pack, State.driveEvent_cleared event]
  · obtain ⟨out, -⟩ := stepByte_quiet h done
    cases framed.symm.trans (congrArg Output.frame out)

/-! ### Staging -/

theorem tableWord_ctrl (w : BitVec 2) : tableWord 8 w.toNat = some (.ctrl w) := by
  simpa [tableWord] using w.isLt

theorem tableWord_sel (w : BitVec 10) : tableWord 16 w.toNat = some (.sel w) := by
  simpa [tableWord] using w.isLt

theorem tableWord_frame (w : FrameWord) : tableWord 72 w.toNat = some (.frame w) := by
  simpa [tableWord] using w.isLt

theorem withFetchWord_ctrl (s : State) (w : BitVec 2) : s.withFetchWord 8 w.toNat = s.stageCtrl w := by
  rw [State.withFetchWord, State.stageTableWord, tableWord_ctrl]

theorem withFetchWord_sel (s : State) (w : BitVec 10) : s.withFetchWord 16 w.toNat = s.stageSel w := by
  rw [State.withFetchWord, State.stageTableWord, tableWord_sel]

theorem withFetchWord_frame (s : State) (w : FrameWord) : s.withFetchWord 72 w.toNat = s.stageFrame w := by
  rw [State.withFetchWord, State.stageTableWord, tableWord_frame]

theorem step_schedule (s : State) (c : CycleInput) : step (s.schedule c) = stepCycle s c := rfl

/-- Staging a selector word schedules its byte for a legal state of its decoder state. -/
theorem stageSel_selWord (s : State) (st : DecoderState) (b : Byte) :
    ∃ u : State, s.stageSel (selWord st b) = u.schedule (byteInput b) ∧ u.st = st ∧ u.inputs = s.inputs ∧ u.CursorOk := by
  unfold State.stageSel
  rw [selWord_state, DecoderState.ofCode_code, selWord_byte]
  have inside : (if s.cur.val = FRAME_LEN then 0 else s.cur).val ≤ 8 := by
    split_ifs with full
    · exact Nat.zero_le 8
    · exact Nat.le_of_lt_succ (lt_of_le_of_ne (Nat.le_of_lt_succ s.cur.isLt) full)
  cases st with
  | idle => exact ⟨_, rfl, rfl, rfl, fun inFrame => absurd rfl inFrame⟩
  | payload => exact ⟨_, rfl, rfl, rfl, fun _ => inside⟩
  | escape => exact ⟨_, rfl, rfl, rfl, fun _ => inside⟩

/-- The step after staging a transition runs it. -/
theorem staged_transition_runs (s : State) (st : DecoderState) (b : Byte) :
    ∃ t : State, step (s.stageSel (selWord st b)) = .next t ∧ t.inputs = s.inputs ∧
      exec (transition st b) (s.stageSel (selWord st b)).advance = .next t := by
  obtain ⟨u, staged, rfl, inputs, cursor⟩ := stageSel_selWord s st b
  obtain ⟨t, answer⟩ := stepByte_answers b cursor
  rw [staged, step_schedule, State.schedule_advance]
  have run := (stepByte_transition u b).symm.trans answer
  obtain ⟨kept, -⟩ := instructionsWriteOnlyTheirOwn _ _ _ run
  exact ⟨t, answer, kept.trans inputs, run⟩

/-- Staging a frame schedules a byte that completes it. -/
theorem stageFrame_eq (s : State) (w : FrameWord) :
    ∃ (u : State) (b : Byte), s.stageFrame w = u.schedule (byteInput b) ∧ u.inputs = s.inputs ∧
      u.buf = (unpack w).set 8 s.buf[8] ∧ completes u b = true ∧ writtenByte u.st b = some w.trailer := by
  unfold State.stageFrame
  by_cases esc : w.trailer = ESC
  · simp only [if_pos esc]
    exact ⟨_, _, rfl, rfl, rfl, rfl, congrArg some esc.symm⟩
  · simp only [if_neg esc]
    exact ⟨_, _, rfl, rfl, rfl, (completes_iff _ _).mpr ⟨nofun, rfl, fun _ => esc⟩, if_neg esc⟩

/-- The step after staging a frame completes it. -/
theorem staged_frame_completes (s : State) (w : FrameWord) :
    ∃ t : State, step (s.stageFrame w) = .next t ∧ t.inputs = s.inputs ∧
      t.framePort = some (unpack w) ∧ t.eventPort = dispatch (unpack w) := by
  obtain ⟨u, b, staged, inputs, buf, done, written⟩ := stageFrame_eq s w
  obtain ⟨v, last, written', answer⟩ := stepByte_completes done
  cases written.symm.trans written'
  have whole : memWrite u.buf u.cur.val w.trailer (lt_frameLen last.le) = unpack w := by
    have ninth : w.trailer = (unpack w)[8] := (unpack_getElem w (i := 8) (by decide)).symm
    simp only [memWrite, last, buf, Vector.set_set, ninth, Vector.set_getElem_self]
  rw [staged, step_schedule]
  exact ⟨_, answer, inputs, congrArg some whole, congrArg dispatch whole⟩

/-- The step after staging a control word that decodes runs it. -/
theorem staged_ctrl_runs (s : State) {w : BitVec 2} {i : Instr} (decoded : decode (.ctrl w) = .ok i) :
    ∃ t : State, step (s.stageCtrl w) = .next t ∧ t.inputs = s.inputs ∧ exec i (s.stageCtrl w).advance = .next t := by
  rw [State.stageCtrl, step_schedule, State.schedule_advance]
  rcases ctrl_cases w with ⟨v, rfl⟩ | rfl | rfl
  · cases (decode_reset v).symm.trans decoded
    have reset : (BitVec.ofBool true ++ BitVec.ofBool v).getLsbD 1 = true := by cases v <;> rfl
    exact ⟨_, stepCycle_reset s reset, rfl, rfl⟩
  · cases decode_hold.symm.trans decoded
    exact ⟨_, stepCycle_hold s rfl rfl, rfl, rfl⟩
  · cases decode_byteStep.symm.trans decoded

/-- Settles O11, format by format. -/
theorem stagedWordRunsNext : Obligations.StagedWordRunsNext := by
  intro s i wf
  have decoded := decodeInvertsEncode i wf
  cases word : encode i with
  | sel w =>
    simp only [withFetchWord_sel]
    rw [word] at decoded
    rcases selWord_or_reserved w with ⟨st, b, rfl⟩ | ⟨b, rfl⟩
    · cases (decode_selWord st b).symm.trans decoded
      exact staged_transition_runs s st b
    · cases (decode_reserved b).symm.trans decoded
  | frame w =>
    simp only [withFetchWord_frame]
    rw [word] at decoded
    cases decoded
    obtain ⟨t, answer, inputs, frame, event⟩ := staged_frame_completes s w
    have run := exec_decodeFrame_pack (unpack w) { t with eventPort := none }
    rw [pack_unpack, State.driveEvent_cleared event] at run
    exact ⟨t, answer, inputs, frame, run⟩
  | ctrl w =>
    simp only [withFetchWord_ctrl]
    rw [word] at decoded
    exact staged_ctrl_runs s decoded

end Sys2Proof.Machine


/-! # Escapes and stuffed frames

What a pair of `ESC` and a byte writes, and the shape of a frame as the sender stuffs it (30_encoding.md rules R65 to R68). -/

namespace Sys2Proof.Machine

/-! ### The pair of an escape -/

theorem unescape_xor (v : Byte) : unescape (v ^^^ ESC_XOR) = v := by
  simp [unescape]

/-- A write that answers leaves the byte at the cursor and moves it on. -/
theorem State.write_buf_cur {s t : State} {w : Byte} (h : s.write w = .next t) (inside : s.cur.val ≤ 8) :
    t.buf = memWrite s.buf s.cur.val w (lt_frameLen inside) ∧ t.cur.val = s.cur.val + 1 := by
  rcases State.write_cases h with ⟨_, rfl⟩ | ⟨_, rfl⟩ <;> exact ⟨rfl, rfl⟩

theorem stepByte_esc {s : State} (payload : s.st = .payload) (inside : s.cur.val ≤ 8) :
    stepByte s ESC = .next (s.goto .escape) := by
  simpa [stepByte_eq, payload, execPayEsc] using State.armEscape_inside inside

theorem stepByte_escaped {s : State} (escape : s.st = .escape) (b : Byte) : stepByte s b = s.write (unescape b) := by
  simp [stepByte_eq, escape, execEscData]

/-- Settles O41: `ESC` arms the escape and changes nothing else, the next byte writes `v`. -/
theorem escapeRoundTrip : Obligations.EscapeRoundTrip := by
  intro s v payload inside
  have armed : (s.goto .escape).cur.val ≤ 8 := inside
  obtain ⟨t, written⟩ := State.write_answers v armed
  have pair : stepByte (s.goto .escape) (v ^^^ ESC_XOR) = .next t := by
    rw [stepByte_escaped rfl, unescape_xor, written]
  obtain ⟨buf, cur⟩ := State.write_buf_cur written armed
  exact ⟨t, _, runBytes_cons (stepByte_esc payload inside) (runBytes_cons pair rfl), buf, cur⟩

/-! ### Stuffing -/

theorem start_not_mem_stuffByte (v : Byte) : START ∉ stuffByte v := by
  unfold stuffByte
  split_ifs with control
  · rcases control with rfl | rfl <;> decide
  · rw [not_or] at control
    simpa using Ne.symm control.1

theorem length_stuffByte (v : Byte) : (stuffByte v).length = if v == START || v == ESC then 2 else 1 := by
  simp only [stuffByte, Bool.or_eq_true, beq_iff_eq]
  split_ifs <;> rfl

/-- Each escaped byte of a list takes one further byte. -/
theorem length_flatMap_stuffByte (l : List Byte) :
    (l.flatMap stuffByte).length = l.length + l.countP fun v => v == START || v == ESC := by
  induction l with
  | nil => rfl
  | cons v l ih =>
    rw [List.flatMap_cons, List.length_append, ih, length_stuffByte, List.length_cons, List.countP_cons]
    split_ifs <;> omega

theorem length_stuff (p : PacketBuffer) : (stuff p).length = 10 + escapedCount p := by
  rw [stuff, List.length_cons, length_flatMap_stuffByte, Vector.length_toList, escapedCount, Nat.add_right_comm]

theorem escapedCount_le (p : PacketBuffer) : escapedCount p ≤ 9 :=
  List.countP_le_length.trans_eq p.length_toList

/-- Settles O43: no stuffed byte is a `START`, and at most nine are escaped. -/
theorem stuffedFrameShape : Obligations.StuffedFrameShape := by
  intro p
  have length := length_stuff p
  have escaped := escapedCount_le p
  refine ⟨⟨_, rfl, ?_⟩, length, by omega, by omega⟩
  rintro b mem rfl
  obtain ⟨v, -, stuffed⟩ := List.mem_flatMap.mp mem
  exact start_not_mem_stuffByte v stuffed

end Sys2Proof.Machine


/-! # The transitions

Each transition of 40_frame_decoder.md with its effect, the bytes that select it and its corners. What the two writing
transitions do is `Wrote`, which every answering write meets. -/

namespace Sys2Proof.Machine

/-! ### What a write leaves -/

/-- Everything a write does is what `Wrote` says (40_frame_decoder.md rule R86). -/
theorem State.write_wrote {s t : State} {w : Byte} (h : s.write w = .next t) : Wrote s t w := by
  have buffer (inside : s.cur.val < FRAME_LEN) (k : Nat) (hk : k < FRAME_LEN) :
      (memWrite s.buf s.cur.val w inside)[k] = if k = s.cur.val then w else s.buf[k] := by
    rw [memWrite_getElem]
    exact if_congr eq_comm rfl rfl
  rcases State.write_cases h with ⟨lt, rfl⟩ | ⟨eq, rfl⟩
  · exact ⟨buffer (lt_frameLen lt.le), rfl, rfl, fun full => absurd (Nat.succ.inj full) lt.ne, fun _ => ⟨rfl, rfl, rfl⟩⟩
  · exact ⟨buffer (lt_frameLen eq.le), rfl, rfl, fun _ => ⟨rfl, rfl, rfl⟩, fun more => absurd (congrArg (· + 1) eq) more⟩

/-- A write inside the buffer answers. -/
theorem State.write_wrote_of_le {s : State} (w : Byte) (inside : s.cur.val ≤ 8) :
    ∃ t : State, s.write w = .next t ∧ Wrote s t w :=
  (State.write_answers w inside).imp fun _ h => ⟨h, State.write_wrote h⟩

theorem Wrote.cur {s t : State} {w : Byte} (h : Wrote s t w) : t.cur.val = s.cur.val + 1 := by
  obtain ⟨-, cur, -⟩ := h
  exact cur

/-- A write that answers is inside the buffer, which has no room for a cursor above 9. -/
theorem Wrote.inside {s t : State} {w : Byte} (h : Wrote s t w) : s.cur.val ≤ 8 := by
  have cur := h.cur
  have room : t.cur.val < 10 := t.cur.isLt
  omega

/-- The byte at the cursor is the written one. -/
theorem Wrote.written {s t : State} {w : Byte} (h : Wrote s t w) :
    t.buf[s.cur.val]'(lt_frameLen h.inside) = w := by
  obtain ⟨buffer, -⟩ := h
  rw [buffer, if_pos rfl]

/-- The ninth write completes the frame. -/
theorem Wrote.ninth {s t : State} {w : Byte} (h : Wrote s t w) (last : s.cur.val = 8) :
    t.st = .idle ∧ t.cur.val = 9 ∧ t.output = ⟨some t.buf, dispatch t.buf⟩ := by
  obtain ⟨-, cur, -, complete, -⟩ := h
  have full : t.cur.val = 9 := by omega
  obtain ⟨idle, frame, event⟩ := complete full
  exact ⟨idle, full, by rw [State.output, frame, event]⟩

/-- Every other write leaves the frame open. -/
theorem Wrote.short {s t : State} {w : Byte} (h : Wrote s t w) (more : s.cur.val < 8) :
    t.st = .payload ∧ t.output = ⟨none, none⟩ := by
  obtain ⟨-, cur, -, -, goOn⟩ := h
  obtain ⟨payload, frame, event⟩ := goOn (by omega)
  exact ⟨payload, by rw [State.output, frame, event]⟩

/-- After a write the decoder is never in `Escape`: the escape holds for one byte (R92). -/
theorem Wrote.not_escape {s t : State} {w : Byte} (h : Wrote s t w) : t.st ≠ .escape := by
  obtain ⟨-, -, -, complete, goOn⟩ := h
  by_cases full : t.cur.val = 9
  · obtain ⟨idle, -⟩ := complete full
    simp [idle]
  · obtain ⟨payload, -⟩ := goOn full
    simp [payload]

/-! ### The transition of a byte -/

theorem stepByte_start {s : State} (idle : s.st = .idle) : stepByte s START = exec .idleStart s := by
  simp [stepByte_transition, transition, idle]

theorem stepByte_skip {s : State} (idle : s.st = .idle) {b : Byte} (noise : b ≠ START) :
    stepByte s b = exec (.idleSkip b) s := by
  simp [stepByte_transition, transition, idle, noise]

theorem stepByte_data {s : State} (payload : s.st = .payload) {b : Byte} (plain : b ≠ ESC) :
    stepByte s b = exec (.payData b) s := by
  simp [stepByte_transition, transition, payload, plain]

/-- Inside a frame a byte arms an escape or writes (40_frame_decoder.md rule R94, the rows of `Payload` and `Escape`). -/
theorem stepByte_inFrame_cases {s t : State} {b : Byte} (inFrame : s.st ≠ .idle) (h : stepByte s b = .next t) :
    t = s.goto .escape ∨ ∃ w : Byte, Wrote s t w := by
  rcases stepByte_cases h with ⟨idle, -⟩ | ⟨idle, -⟩ | ⟨-, -, -, rfl⟩ | ⟨-, -, hw⟩ | ⟨-, hw⟩
  · exact absurd idle inFrame
  · exact absurd idle inFrame
  · exact .inl rfl
  · exact .inr ⟨_, State.write_wrote hw⟩
  · exact .inr ⟨_, State.write_wrote hw⟩

/-- Outside a frame a byte opens one or is skipped. -/
theorem stepByte_idle_cases {s t : State} {b : Byte} (idle : s.st = .idle) (h : stepByte s b = .next t) :
    (b = START ∧ t = { s.goto .payload with cur := 0 }) ∨ t = s.driveNone := by
  by_cases start : b = START
  · subst start
    cases (stepByte_start idle).symm.trans h
    exact .inl ⟨rfl, rfl⟩
  · cases (stepByte_skip idle start).symm.trans h
    exact .inr rfl

/-- A step that drives the frame port ends in `Idle`. -/
theorem stepByte_idle_of_frame {s t : State} {b : Byte} (h : stepByte s b = .next t) (framed : t.framePort ≠ none) :
    t.st = .idle := by
  by_cases done : completes s b = true
  · obtain ⟨idle, -⟩ := stepByte_completed h done
    exact idle
  · obtain ⟨out, -⟩ := stepByte_quiet h done
    exact absurd (congrArg Output.frame out) framed

/-! ### The statements -/

/-- Settles O13: inside a frame the cursor is kept or one more, so only a `START` in `Idle` sets it to 0. -/
theorem idleStartOpensFrame : Obligations.IdleStartOpensFrame := by
  intro s
  refine ⟨rfl, by decide, stepByte_start, fun b t h zero nonzero => ?_, fun b t idle h opened => ?_,
    fun b t h framed => stepByte_start (stepByte_idle_of_frame h framed), fun inFrame => ?_⟩
  · by_cases idle : s.st = .idle
    · rcases stepByte_idle_cases idle h with ⟨start, -⟩ | rfl
      · exact ⟨idle, start⟩
      · exact absurd zero nonzero
    · rcases stepByte_inFrame_cases idle h with rfl | ⟨w, wrote⟩
      · exact absurd zero nonzero
      · have cur := wrote.cur
        simp [zero] at cur
  · rcases stepByte_idle_cases idle h with ⟨start, -⟩ | rfl
    · exact start
    · exact absurd idle opened
  · obtain ⟨starts, -⟩ := everyStateAndByteHasOneTransition s.st START
    exact fun decoded => inFrame (starts.mp decoded).1

/-- Settles O15: the armed escape keeps the cursor, so the byte after it at `cur = 8` is the ninth write. -/
theorem payEscArmsEscape : Obligations.PayEscArmsEscape := by
  intro s
  refine ⟨State.armEscape_inside, by decide, fun payload => ?_, fun payload last b => ?_⟩
  · simp [stepByte_transition, transition, payload]
  · have inside : (s.goto .escape).cur.val ≤ 8 := last.le
    obtain ⟨u, written, wrote⟩ := State.write_wrote_of_le (unescape b) inside
    obtain ⟨idle, -, out⟩ := wrote.ninth last
    have trailer : u.buf[8] = unescape b := by simpa [last] using wrote.written
    exact ⟨s.goto .escape, u, stepByte_esc payload last.le, rfl, rfl, (stepByte_escaped rfl b).trans written, idle,
      congrArg Output.frame out, trailer⟩

/-- Settles O16: the transition is `Write` of the wire byte. -/
theorem payDataWritesByte : Obligations.PayDataWritesByte :=
  fun _ b => ⟨State.write_wrote_of_le b, fun payload => stepByte_data payload⟩

/-- Settles O17: the transition is `Write` of the byte XOR `0x20`. -/
theorem escDataWritesXoredByte : Obligations.EscDataWritesXoredByte := by
  intro s b
  refine ⟨fun inside => ?_, fun escape => stepByte_escaped escape b⟩
  obtain ⟨t, written, wrote⟩ := State.write_wrote_of_le (unescape b) inside
  exact ⟨t, written, wrote, wrote.not_escape⟩

/-- Settles O39: an armed escape keeps the cursor and stays in the frame, a write moves on, and only the ninth closes it. -/
theorem noResynchronisationInsideFrame : Obligations.NoResynchronisationInsideFrame := by
  intro s t b inFrame h
  rcases stepByte_inFrame_cases inFrame h with rfl | ⟨w, wrote⟩
  · simp
  · have cur := wrote.cur
    refine ⟨by omega, ?_⟩
    rcases wrote.inside.lt_or_eq with more | last
    · obtain ⟨payload, -⟩ := wrote.short more
      exact iff_of_false (by simp [payload]) fun ⟨_, last, _⟩ => more.ne last
    · obtain ⟨idle, full, out⟩ := wrote.ninth last
      exact iff_of_true idle ⟨full, last, congrArg Output.frame out⟩

end Sys2Proof.Machine


/-! # Runs

Runs without output (noise in `Idle`, cycles without a byte), runs over whole frames and streams of them, the projection of
cycles to bytes, and the count of frames. -/

namespace Sys2Proof.Machine

/-! ### Concatenation -/

theorem runBytes_append {s t u : State} {xs ys : List Byte} {o o' : List Output} (first : runBytes s xs = .next (t, o))
    (second : runBytes t ys = .next (u, o')) : runBytes s (xs ++ ys) = .next (u, o ++ o') := by
  induction xs generalizing s o with
  | nil => cases first; exact second
  | cons b xs ih =>
    obtain ⟨v, rest, step, run, rfl⟩ := runBytes_cases first
    exact runBytes_cons step (ih run)

/-- Settles O40, by the induction on the first part that `runBytes_append` makes. -/
theorem runOfAppend : Obligations.RunOfAppend :=
  fun _ _ _ _ _ _ _ first second => runBytes_append first second

@[simp] theorem frames_nil : frames [] = [] := rfl

@[simp] theorem events_nil : events [] = [] := rfl

@[simp] theorem frames_cons (o : Output) (outs : List Output) : frames (o :: outs) = o.frame.toList ++ frames outs := by
  cases h : o.frame <;> simp [frames, h]

@[simp] theorem events_cons (o : Output) (outs : List Output) : events (o :: outs) = o.event.toList ++ events outs := by
  cases h : o.event <;> simp [events, h]

@[simp] theorem frames_append (o o' : List Output) : frames (o ++ o') = frames o ++ frames o' := List.filterMap_append

@[simp] theorem events_append (o o' : List Output) : events (o ++ o') = events o ++ events o' := List.filterMap_append

@[simp] theorem frames_quiet (n : Nat) : frames (List.replicate n ⟨none, none⟩) = [] := by simp [frames]

@[simp] theorem events_quiet (n : Nat) : events (List.replicate n ⟨none, none⟩) = [] := by simp [events]

/-! ### Runs that leave no trace -/

/-- Settles O14: each skipped byte leaves the state as it was but for the ports. -/
theorem idleSkipLeavesNoTrace : Obligations.IdleSkipLeavesNoTrace := by
  refine ⟨fun s b => ⟨rfl, fun idle => stepByte_skip idle⟩, fun bs => ?_⟩
  induction bs with
  | nil => exact fun s idle _ => ⟨s, rfl, idle, rfl, rfl, rfl⟩
  | cons b bs ih =>
    intro s idle noise
    obtain ⟨first, rest⟩ := List.forall_mem_cons.mp noise
    obtain ⟨t, run, same⟩ := ih s.driveNone idle rest
    exact ⟨t, runBytes_cons (stepByte_skip idle first) run, same⟩

/-- Settles O19: each cycle without a byte leaves the state as it was but for the ports. -/
theorem holdKeepsEverything : Obligations.HoldKeepsEverything := by
  intro s x
  refine ⟨rfl, stepCycle_hold s rfl rfl, fun n => ?_⟩
  induction n generalizing s with
  | zero => exact ⟨s, rfl, rfl, rfl, rfl, rfl⟩
  | succ n ih =>
    obtain ⟨t, run, same⟩ := ih s.driveNone
    exact ⟨t, runCycles_cons (stepCycle_hold s rfl rfl) run, same⟩

/-! ### The ports are no state

A byte step overwrites both ports and reads neither, so states that differ in their ports alone take the same step. -/

theorem stepByte_driveNone (s : State) (b : Byte) : stepByte s.driveNone b = stepByte s b := by
  rw [stepByte_eq, stepByte_eq]
  rfl

/-- `s` and `s'` differ at most in what their ports were driven to. -/
def SameButPorts (s s' : State) : Prop := s.driveNone = s'.driveNone

theorem SameButPorts.stepByte_eq {s s' : State} (same : SameButPorts s s') (b : Byte) : stepByte s b = stepByte s' b := by
  rw [← stepByte_driveNone s, ← stepByte_driveNone s', same]

theorem SameButPorts.registers {s s' : State} (same : SameButPorts s s') :
    s.st = s'.st ∧ s.cur = s'.cur ∧ s.buf = s'.buf :=
  ⟨(congrArg State.st same :), (congrArg State.cur same :), (congrArg State.buf same :)⟩

/-- Settles O46: each idle cycle clears the ports and nothing else. -/
theorem idleCyclesNeverExpireAnything : Obligations.IdleCyclesNeverExpireAnything := by
  intro s t n x b outs
  induction n generalizing s outs with
  | zero =>
    have taken : stepCycle s ⟨false, true, b⟩ = stepByte s b := stepCycle_byte s rfl rfl
    constructor
    · intro h
      obtain ⟨u, rest, step, run, rfl⟩ := runCycles_cases h
      cases run
      exact ⟨taken.symm.trans step, rfl⟩
    · rintro ⟨step, rfl⟩
      exact runCycles_cons (taken.trans step) rfl
  | succ n ih =>
    have hold : stepCycle s ⟨false, false, x⟩ = .next s.driveNone := stepCycle_hold s rfl rfl
    constructor
    · intro h
      obtain ⟨u, rest, step, run, rfl⟩ := runCycles_cases h
      cases hold.symm.trans step
      obtain ⟨byte, rfl⟩ := (ih s.driveNone rest).mp run
      exact ⟨(stepByte_driveNone s b).symm.trans byte, rfl⟩
    · rintro ⟨byte, rfl⟩
      exact runCycles_cons hold ((ih s.driveNone _).mpr ⟨(stepByte_driveNone s b).trans byte, rfl⟩)

/-- The byte-level run follows the cycle-level one (40_frame_decoder.md rule R84); in a cycle without a byte it stands still
while the ports are cleared. -/
theorem runBytes_of_runCycles {cs : List CycleInput} (noReset : ∀ c ∈ cs, c.rst = false) {s s' t : State}
    {outs : List Output} (same : SameButPorts s' s) (h : runCycles s cs = .next (t, outs)) :
    ∃ (u : State) (outs' : List Output), runBytes s' (acceptedBytes cs) = .next (u, outs') ∧ SameButPorts u t ∧
      frames outs' = frames outs ∧ events outs' = events outs := by
  induction cs generalizing s s' outs with
  | nil => cases h; exact ⟨s', [], rfl, same, rfl, rfl⟩
  | cons c cs ih =>
    obtain ⟨running, noReset⟩ := List.forall_mem_cons.mp noReset
    obtain ⟨v, rest, step, run, rfl⟩ := runCycles_cases h
    rcases stepCycle_cases step with ⟨reset, -⟩ | ⟨-, noByte, rfl⟩ | ⟨-, byte, taken⟩
    · simp [running] at reset
    · have skipped : acceptedBytes (c :: cs) = acceptedBytes cs := by simp [acceptedBytes, noByte]
      rw [skipped]
      have cleared : SameButPorts s' s.driveNone := same
      simpa using ih noReset cleared run
    · have accepted : acceptedBytes (c :: cs) = c.inData :: acceptedBytes cs := by
        simp [acceptedBytes, running, byte]
      obtain ⟨u, outs', follows, ends, frame, event⟩ := ih noReset rfl run
      rw [accepted]
      exact ⟨u, _, runBytes_cons ((same.stepByte_eq _).trans taken) follows, ends, by simp [frame], by simp [event]⟩

/-- Settles O47, both runs starting in one state. -/
theorem cyclesProjectToBytes : Obligations.CyclesProjectToBytes := by
  intro cs s t outs noReset h
  obtain ⟨u, outs', run, same, frame, event⟩ := runBytes_of_runCycles noReset rfl h
  obtain ⟨st, cur, buf⟩ := same.registers
  exact ⟨u, outs', run, st, cur, buf, frame, event⟩

/-! ### Payload units and frames -/

/-- One payload unit makes one write, in its last byte (30_encoding.md rule R65). -/
theorem runBytes_unit {s : State} {u : WireUnit} (payload : s.st = .payload) (inside : s.cur.val ≤ 8)
    (wf : u.wellFormed = true) :
    ∃ (t : State) (n : Nat), Wrote s t u.payload ∧ n + 1 = u.wire.length ∧
      runBytes s u.wire = .next (t, List.replicate n ⟨none, none⟩ ++ [t.output]) := by
  cases u with
  | plain b =>
    have plain : b ≠ ESC := by simpa [WireUnit.wellFormed] using wf
    obtain ⟨t, written, wrote⟩ := State.write_wrote_of_le b inside
    exact ⟨t, 0, wrote, rfl, runBytes_cons ((stepByte_data payload plain).trans written) rfl⟩
  | escaped b =>
    have armed : (s.goto .escape).cur.val ≤ 8 := inside
    obtain ⟨t, written, wrote⟩ := State.write_wrote_of_le (unescape b) armed
    exact ⟨t, 1, wrote, rfl,
      runBytes_cons (stepByte_esc payload inside) (runBytes_cons ((stepByte_escaped rfl b).trans written) rfl)⟩

/-- The written part of the buffer, the bytes below the cursor, grows by the byte of each write. -/
theorem Wrote.take {s t : State} {w : Byte} (h : Wrote s t w) :
    t.buf.toList.take t.cur.val = s.buf.toList.take s.cur.val ++ [w] := by
  obtain ⟨buffer, cur, -⟩ := h
  have room : t.cur.val < 10 := t.cur.isLt
  apply List.ext_getElem
  · simp only [List.length_take, Vector.length_toList, List.length_append, List.length_singleton]
    omega
  · intro k hk _
    have below : k < t.cur.val := by simp only [List.length_take] at hk; omega
    rw [List.getElem_take, Vector.getElem_toList, buffer k (by omega)]
    split_ifs with atCursor
    · simp [atCursor]
    · have lt : k < s.cur.val := by omega
      have written : k < (s.buf.toList.take s.cur.val).length := by
        rw [List.length_take, Vector.length_toList]
        omega
      rw [List.getElem_append_left written, List.getElem_take, Vector.getElem_toList]

/-- The units still missing from a frame complete it, in their last byte (40_frame_decoder.md rule R98). -/
theorem runBytes_units {us : List WireUnit} {s : State} (payload : s.st = .payload) (room : s.cur.val ≤ 8)
    (count : s.cur.val + us.length = 9) (wf : ∀ u ∈ us, u.wellFormed = true) :
    ∃ (t : State) (n : Nat), t.st = .idle ∧ t.cur.val = 9 ∧
      t.buf.toList = s.buf.toList.take s.cur.val ++ us.map WireUnit.payload ∧
      n + 1 = (us.flatMap WireUnit.wire).length ∧
      runBytes s (us.flatMap WireUnit.wire) =
        .next (t, List.replicate n ⟨none, none⟩ ++ [⟨some t.buf, dispatch t.buf⟩]) := by
  induction us generalizing s with
  | nil => exact absurd count (Nat.lt_succ_of_le room).ne
  | cons u us ih =>
    obtain ⟨wfHead, wfTail⟩ := List.forall_mem_cons.mp wf
    obtain ⟨t, n, wrote, length, run⟩ := runBytes_unit payload room wfHead
    have cur := wrote.cur
    have filled := wrote.take
    rw [List.length_cons] at count
    rcases eq_or_ne s.cur.val 8 with last | more
    · obtain ⟨idle, full, out⟩ := wrote.ninth last
      have noneLeft : us = [] := List.eq_nil_of_length_eq_zero (by omega)
      have whole : t.buf.toList.take t.cur.val = t.buf.toList := List.take_of_length_le (by simp [full])
      subst noneLeft
      exact ⟨t, n, idle, full, by simpa [whole] using filled, by simpa using length, by simpa [out] using run⟩
    · obtain ⟨inFrame, out⟩ := wrote.short (by omega)
      obtain ⟨v, m, idle, full, buf, length', run'⟩ := ih inFrame (by omega) (by omega) wfTail
      have quiet : List.replicate n ⟨none, none⟩ ++ [t.output] = List.replicate (n + 1) (⟨none, none⟩ : Output) := by
        rw [out, List.replicate_succ']
      refine ⟨v, (n + 1) + m, idle, full, by simp [buf, filled], ?_, ?_⟩
      · rw [List.flatMap_cons, List.length_append]
        omega
      · rw [List.flatMap_cons, List.replicate_add, List.append_assoc, ← quiet]
        exact runBytes_append run run'

/-- Settles O42: `START` opens the frame at cursor 0, which nine units complete. -/
theorem exactFraming : Obligations.ExactFraming := by
  intro s us idle nine wf
  have start : stepByte s START = .next { s.goto .payload with cur := 0 } := stepByte_start idle
  obtain ⟨t, n, ended, full, buf, length, run⟩ :=
    runBytes_units (s := { s.goto .payload with cur := 0 }) rfl (Nat.zero_le 8) ((Nat.zero_add _).trans nine) wf
  refine ⟨t, ended, full, by simpa using buf, ?_⟩
  rw [← length, List.replicate_succ]
  exact runBytes_cons start run

/-! ### Streams of stuffed frames -/

/-- The unit canonical stuffing sends for a payload byte (30_encoding.md rule R67). -/
def stuffUnit (v : Byte) : WireUnit := if v = START ∨ v = ESC then .escaped (v ^^^ ESC_XOR) else .plain v

theorem stuffUnit_wire (v : Byte) : (stuffUnit v).wire = stuffByte v := by
  unfold stuffUnit stuffByte
  split_ifs <;> rfl

theorem stuffUnit_payload (v : Byte) : (stuffUnit v).payload = v := by
  unfold stuffUnit
  split_ifs
  · exact unescape_xor v
  · rfl

theorem stuffUnit_wellFormed (v : Byte) : (stuffUnit v).wellFormed = true := by
  unfold stuffUnit
  split_ifs with control
  · rfl
  · rw [not_or] at control
    simpa [WireUnit.wellFormed] using control.2

theorem stuff_eq_units (p : PacketBuffer) : stuff p = START :: (p.toList.map stuffUnit).flatMap WireUnit.wire := by
  simp [stuff, List.flatMap_map, stuffUnit_wire]

/-- A stuffed frame is received as that frame and nothing else (30_encoding.md rule R96). -/
theorem runBytes_stuff {s : State} (idle : s.st = .idle) (p : PacketBuffer) :
    ∃ (t : State) (outs : List Output), runBytes s (stuff p) = .next (t, outs) ∧ t.st = .idle ∧
      frames outs = [p] ∧ events outs = (dispatch p).toList := by
  have wf : ∀ u ∈ p.toList.map stuffUnit, u.wellFormed = true := by
    simp [stuffUnit_wellFormed]
  obtain ⟨t, ended, -, buf, run⟩ := exactFraming s _ idle (by simp) wf
  have frame : t.buf = p := by
    apply Vector.toList_inj.mp
    simpa [stuffUnit_payload, Function.comp_def] using buf
  rw [stuff_eq_units]
  exact ⟨t, _, run, ended, by simp [frame], by simp [frame]⟩

/-- Settles O44, frame by frame: the noise before a frame leaves no trace, and the frame ends in `Idle`. -/
theorem stuffedStreamsAreReassembled : Obligations.StuffedStreamsAreReassembled := by
  intro s items
  induction items generalizing s with
  | nil => exact fun idle _ => ⟨s, [], rfl, idle, rfl, rfl⟩
  | cons item items ih =>
    intro idle noise
    obtain ⟨first, rest⟩ := List.forall_mem_cons.mp noise
    obtain ⟨-, skip⟩ := idleSkipLeavesNoTrace
    obtain ⟨t, skipped, waiting, -⟩ := skip item.1 s idle first
    obtain ⟨u, outs, received, closed, frame, event⟩ := runBytes_stuff waiting item.2
    obtain ⟨v, outs', run, ended, frames', events'⟩ := ih u closed rest
    refine ⟨v, _, runBytes_append (runBytes_append skipped received) run, ended, ?_, ?_⟩
    · simp [frame, frames']
    · cases drop : dispatch item.2 <;> simp [event, events', drop]

/-! ### Counting -/

/-- The bytes a frame in progress has surely taken: its `START` and one for each write. -/
def State.bytesSpent (s : State) : Nat := if s.st = .idle then 0 else s.cur.val + 1

/-- The output of an accepted byte: a frame with what `Dispatch` gives it, or nothing. -/
theorem stepByte_output_cases {s t : State} {b : Byte} (h : stepByte s b = .next t) :
    t.output = ⟨some t.buf, dispatch t.buf⟩ ∨ t.output = ⟨none, none⟩ := by
  by_cases done : completes s b = true
  · obtain ⟨-, -, out⟩ := stepByte_completed h done
    exact .inl out
  · obtain ⟨out, -⟩ := stepByte_quiet h done
    exact .inr out

/-- There is no event without a frame. -/
theorem events_length_le_frames_length {s t : State} {bs : List Byte} {outs : List Output}
    (h : runBytes s bs = .next (t, outs)) : (events outs).length ≤ (frames outs).length := by
  induction bs generalizing s outs with
  | nil => cases h; exact le_rfl
  | cons b bs ih =>
    obtain ⟨u, rest, step, run, rfl⟩ := runBytes_cases h
    have atMostOne : u.output.event.toList.length ≤ u.output.frame.toList.length := by
      rcases stepByte_output_cases step with out | out
      · rw [out]
        exact Option.length_toList_le
      · rw [out]
        exact le_rfl
    simpa using Nat.add_le_add atMostOne (ih run)

/-- A byte adds at most one to the bytes spent, and a completed frame takes ten of them. -/
theorem stepByte_bytesSpent {s t : State} {b : Byte} (h : stepByte s b = .next t) :
    10 * t.output.frame.toList.length + t.bytesSpent ≤ s.bytesSpent + 1 := by
  by_cases idle : s.st = .idle
  · rcases stepByte_idle_cases idle h with ⟨-, rfl⟩ | rfl <;> simp [State.bytesSpent, State.output, idle]
  · rcases stepByte_inFrame_cases idle h with rfl | ⟨w, wrote⟩
    · simp [State.bytesSpent, idle]
    · have cur := wrote.cur
      rcases wrote.inside.lt_or_eq with more | last
      · obtain ⟨payload, out⟩ := wrote.short more
        simp [State.bytesSpent, idle, payload, out, cur]
      · obtain ⟨ended, -, out⟩ := wrote.ninth last
        simp [State.bytesSpent, idle, ended, out, last]

theorem runBytes_bytesSpent {s t : State} {bs : List Byte} {outs : List Output} (h : runBytes s bs = .next (t, outs)) :
    10 * (frames outs).length + t.bytesSpent ≤ s.bytesSpent + bs.length := by
  induction bs generalizing s outs with
  | nil => cases h; simp
  | cons b bs ih =>
    obtain ⟨u, rest, step, run, rfl⟩ := runBytes_cases h
    have head := stepByte_bytesSpent step
    have tail := ih run
    rw [frames_cons, List.length_append, List.length_cons]
    omega

/-- Settles O50: from `Idle` no byte is spent yet, and each frame takes ten. -/
theorem eventsAreBoundedByBytes : Obligations.EventsAreBoundedByBytes := by
  intro s t bs outs idle h
  have spent := runBytes_bytesSpent h
  have noneSpent : s.bytesSpent = 0 := if_pos idle
  exact ⟨events_length_le_frames_length h, by omega⟩

end Sys2Proof.Machine


/-! # The sensor dispatcher

What selects each dispatcher operation and what it drives, and `Dispatch` as one test of the header word
(41_sensor_dispatcher.md rules R103 to R125). -/

namespace Sys2Proof

open Machine

/-! ### The sensor table -/

/-- The table has no second row for an identifier, so looking one up finds its row (rule R103). -/
theorem lookup_eq_some_iff_mem {id : Half} {k : TelemetryKind} : lookup id = some k ↔ ⟨id, k⟩ ∈ SENSOR_TABLE := by
  constructor
  · intro h
    obtain ⟨r, found, rfl⟩ := Option.map_eq_some_iff.mp h
    have same : r.dataTypeId = id := by simpa using List.find?_some found
    exact same ▸ List.mem_of_find?_eq_some found
  · intro mem
    have own : ∀ r ∈ SENSOR_TABLE, lookup r.dataTypeId = some r.kind := by decide
    exact own _ mem

theorem lookup_eq_some_iff {id : Half} {k : TelemetryKind} : lookup id = some k ↔ id = sensorId k :=
  ⟨fun h => (sensorId_of_lookup h).symm, fun h => h ▸ lookup_sensorId k⟩

/-- Settles O27: the sixteen pairs are the rows of `SENSOR_TABLE`. -/
theorem lookupIsTheSensorTable : Obligations.LookupIsTheSensorTable := by
  intro id k
  have pairs : ⟨id, k⟩ ∈ SENSOR_TABLE ↔ (id, k) ∈ SENSOR_TABLE.map fun r => (r.dataTypeId, r.kind) := by
    rw [List.mem_map]
    constructor
    · exact fun mem => ⟨⟨id, k⟩, mem, rfl⟩
    · rintro ⟨r, mem, eq⟩
      cases eq
      exact mem
  exact lookup_eq_some_iff_mem.trans pairs

/-! ### The operation a frame word selects -/

/-- A kind's header word below any value and trailer selects its dispatch operation (rule R73). -/
theorem decode_header (k : TelemetryKind) (v : Word) (t : Byte) :
    decode (.frame (t ++ v ++ headerOf k)) = .ok (Instr.dispatchOf k v t) := by
  have word := append_header DEVICE_ID FRAME_TYPE (sensorId k) v t
  rw [headerOf, word]
  exact decode_of_encode (dispatchOf_wellFormed k v t) (encode_dispatchOf k v t)

/-- All there is to one dispatch operation, with its header word and port code as printed (rules R105 to R120). -/
theorem dispatchOf_operation (k : TelemetryKind) {hdr : BitVec 32} {code : BitVec 4} (header : headerOf k = hdr)
    (port : k.code = code) (s : State) (v : Word) (t : Byte) :
    exec (Instr.dispatchOf k v t) s = .next { s with eventPort := some ⟨k, v⟩ } ∧
      decode (.frame (t ++ v ++ hdr)) = .ok (Instr.dispatchOf k v t) ∧ k.code = code :=
  ⟨exec_dispatchOf k v t s, header ▸ decode_header k v t, port⟩

/-- Settles O23, an operation at a time. -/
theorem dispatchFuelToFlymode : Obligations.DispatchFuelToFlymode := fun s v t =>
  ⟨dispatchOf_operation .fuel rfl rfl s v t, dispatchOf_operation .gps rfl rfl s v t,
    dispatchOf_operation .vbat rfl rfl s v t, dispatchOf_operation .cellVoltage rfl rfl s v t,
    dispatchOf_operation .current rfl rfl s v t, dispatchOf_operation .heading rfl rfl s v t,
    dispatchOf_operation .rssi rfl rfl s v t, dispatchOf_operation .flymode rfl rfl s v t⟩

/-- Settles O24, an operation at a time. -/
theorem dispatchGpsStateToVspeed : Obligations.DispatchGpsStateToVspeed := fun s v t =>
  ⟨dispatchOf_operation .gpsState rfl rfl s v t, dispatchOf_operation .altitude rfl rfl s v t,
    dispatchOf_operation .galt rfl rfl s v t, dispatchOf_operation .distance rfl rfl s v t,
    dispatchOf_operation .gspeed rfl rfl s v t, dispatchOf_operation .pitch rfl rfl s v t,
    dispatchOf_operation .roll rfl rfl s v t, dispatchOf_operation .vspeed rfl rfl s v t⟩

/-- Settles O25: a drop's frame word is its encoding, and its operands are well-formed when the test it names fails. -/
theorem dropsDriveNoEvent : Obligations.DropsDriveNoEvent := by
  intro s dev ty id v t
  refine ⟨⟨rfl, fun device => ?_⟩, ⟨rfl, fun type => ?_⟩, ⟨rfl, fun unknown => ?_⟩⟩
  · exact decode_of_encode ((dropDevice_wellFormed dev ty id v t).mpr device) rfl
  · exact decode_of_encode ((dropType_wellFormed ty id v t).mpr type) rfl
  · have word := append_accept DEVICE_ID FRAME_TYPE id v t
    exact decode_of_encode ((dropUnknown_wellFormed id v t).mpr unknown) (congrArg InstrWord.frame word.symm)

end Sys2Proof

namespace Sys2Proof.Machine

/-! ### `Dispatch`, test by test -/

theorem dispatch_of_unknown {b : PacketBuffer} (h : lookup (b[3] ++ b[2]) = none) : dispatch b = none := by
  simp [dispatch, dataTypeId_eq, h]

theorem dispatch_of_known {b : PacketBuffer} {k : TelemetryKind} (hd : b[0] = DEVICE_ID) (ht : b[1] = FRAME_TYPE)
    (hi : lookup (b[3] ++ b[2]) = some k) : dispatch b = some ⟨k, b[7] ++ b[6] ++ b[5] ++ b[4]⟩ := by
  rw [dispatch_of_accepted hd ht, dataTypeId_eq, hi, value_eq]
  rfl

/-- There is an event exactly when all three tests pass. -/
theorem dispatch_eq_some_iff {b : PacketBuffer} {e : TelemetryEvent} :
    dispatch b = some e ↔
      dataTypeId b = sensorId e.kind ∧ frameType b = FRAME_TYPE ∧ deviceId b = DEVICE_ID ∧ e.value = value b := by
  rw [← lookup_eq_some_iff]
  constructor
  · intro h
    unfold dispatch at h
    split_ifs at h with device type
    cases found : lookup (dataTypeId b) with
    | none => simp [found] at h
    | some k =>
      simp only [found] at h
      cases h
      exact ⟨rfl, not_not.mp type, not_not.mp device, rfl⟩
  · rintro ⟨known, type, device, val⟩
    simp [dispatch, device, type, known, ← val]

/-! ### `Dispatch` as a test of the header word -/

/-- The header word as the spec writes it: `id_K << 16 | 0x0000101B` (rule R104). -/
theorem headerOf_eq_shift (k : TelemetryKind) : headerOf k = ((sensorId k).setWidth 32 <<< 16) ||| 0x0000101B#32 := by
  cases k <;> rfl

/-- The three tests are one comparison of the header word (rule R104). -/
theorem dispatch_eq_some_iff_header {b : PacketBuffer} {e : TelemetryEvent} :
    dispatch b = some e ↔
      (pack b).extractLsb' 0 32 = headerOf e.kind ∧ e.value = (pack b).extractLsb' 32 32 := by
  have fields : (pack b).extractLsb' 0 32 = dataTypeId b ++ frameType b ++ deviceId b := by
    rw [← pack_dataTypeId, ← pack_frameType, ← pack_deviceId]
    exact header_eq (pack b)
  have val : (pack b).extractLsb' 32 32 = value b := pack_value b
  rw [dispatch_eq_some_iff, fields, val, headerOf, append_inj, append_inj, and_assoc, and_assoc]

/-- Settles O28, a test at a time; the last clause is `dispatch_eq_some_iff_header`. -/
theorem dispatchMatchesHeaderWord : Obligations.DispatchMatchesHeaderWord := fun _ =>
  ⟨dispatch_of_device, fun _ => dispatch_of_type, fun _ _ => dispatch_of_unknown, fun _ => dispatch_of_known,
    fun e => headerOf_eq_shift e.kind ▸ dispatch_eq_some_iff_header⟩

/-- Settles O30: the header word fixes the kind, the next 32 bits the value. -/
theorem valueIsPassedThrough : Obligations.ValueIsPassedThrough := by
  intro b e h
  obtain ⟨header, val⟩ := dispatch_eq_some_iff_header.mp h
  refine ⟨val, fun b' same => ?_, fun b' e' same h' => ?_⟩
  · exact ⟨⟨e.kind, (pack b').extractLsb' 32 32⟩, dispatch_eq_some_iff_header.mpr ⟨same.trans header, rfl⟩, rfl⟩
  · calc e'.value = (pack b').extractLsb' 32 32 := dispatch_value h'
      _ = (pack b).extractLsb' 32 32 := same
      _ = e.value := val.symm

/-- Settles O29: one buffer is the other with byte 8 overwritten. -/
theorem trailerIsNotExamined : Obligations.TrailerIsNotExamined := by
  intro b b' agree
  have overwritten : b = memWrite b' 8 b[8] (by decide) := by
    ext k hk : 1
    rw [memWrite_getElem b' 8 k _ (by decide) hk]
    split_ifs with trailer
    · subst trailer
      rfl
    · exact agree k hk (Ne.symm trailer)
  rw [overwritten]
  exact dispatch_memWrite_trailer b' b[8] (by decide)

/-! ### The frames of a byte step -/

/-- A frame on the port is the buffer a completing byte leaves, and the event is `Dispatch` of it. -/
theorem stepByte_framed {s t : State} {b : Byte} {f : PacketBuffer} (h : stepByte s b = .next t)
    (framed : t.framePort = some f) : completes s b = true ∧ f = t.buf ∧ t.eventPort = dispatch f := by
  by_cases done : completes s b = true
  · obtain ⟨-, -, out⟩ := stepByte_completed h done
    have frame : t.framePort = some t.buf := congrArg Output.frame out
    cases framed.symm.trans frame
    exact ⟨done, rfl, congrArg Output.event out⟩
  · obtain ⟨out, -⟩ := stepByte_quiet h done
    cases framed.symm.trans (congrArg Output.frame out)

/-- Settles O26: the event port carries `Dispatch` of the frame, which makes the three tests. -/
theorem completedFrameIsFiltered : Obligations.CompletedFrameIsFiltered := by
  refine ⟨fun s b done => ?_, fun s t b f h framed => ?_⟩
  · obtain ⟨w, _, -, step⟩ := stepByte_completes done
    exact ⟨_, step, rfl⟩
  · obtain ⟨done, buffer, event⟩ := stepByte_framed h framed
    rw [event]
    exact ⟨done, buffer, dispatch_of_device, dispatch_of_type, dispatch_of_unknown, fun _ => dispatch_of_known⟩

end Sys2Proof.Machine


/-! # Safety and termination of frames

From a legal state no run stops (60_exceptions.md rule R131) and no frame stays open for ever (R137). Inside a frame every
byte lowers `State.bytesToIdle`, so as many bytes as it counts reach `Idle`. -/

namespace Sys2Proof.Machine

/-! ### Runs of any length -/

theorem step_cursorOk {s t : State} (cursor : s.CursorOk) (h : step s = .next t) : t.CursorOk :=
  (stepCycle_inv (s := s.advance) cursor h).1

/-- Settles O37, by the induction on the length of the run: each step answers and leaves a legal cursor again. -/
theorem everyRunIsSafe : Obligations.EveryRunIsSafe := by
  intro s cursor n
  induction n generalizing s with
  | zero => exact ⟨s, rfl⟩
  | succ n ih =>
    obtain ⟨t, answer⟩ := stepNeverStops s cursor
    rw [core_run_succ answer]
    exact ih t (step_cursorOk cursor answer)

/-! ### The bytes that a frame in progress can still take -/

/-- The most bytes before `Idle`: two for each byte of the frame not yet written, one less when an escape is armed. -/
def State.bytesToIdle (s : State) : Nat :=
  match s.st with
  | .idle => 0
  | .payload => 2 * (9 - s.cur.val)
  | .escape => 2 * (9 - s.cur.val) - 1

theorem State.bytesToIdle_of_payload {s : State} (h : s.st = .payload) : s.bytesToIdle = 2 * (9 - s.cur.val) := by
  simp [bytesToIdle, h]

theorem State.bytesToIdle_of_escape {s : State} (h : s.st = .escape) : s.bytesToIdle = 2 * (9 - s.cur.val) - 1 := by
  simp [bytesToIdle, h]

theorem State.bytesToIdle_le (s : State) : s.bytesToIdle ≤ 18 := by
  unfold bytesToIdle
  cases s.st <;> dsimp only <;> omega

theorem State.bytesToIdle_pos {s : State} (cursor : s.CursorOk) (inFrame : s.st ≠ .idle) : 0 < s.bytesToIdle := by
  have inside := cursor inFrame
  cases hs : s.st with
  | idle => exact absurd hs inFrame
  | payload => rw [bytesToIdle_of_payload hs]; omega
  | escape => rw [bytesToIdle_of_escape hs]; omega

/-- A write takes the two bytes of its place in the frame. -/
theorem Wrote.bytesToIdle {s t : State} {w : Byte} (h : Wrote s t w) : t.bytesToIdle + 2 = 2 * (9 - s.cur.val) := by
  have cur := h.cur
  rcases h.inside.lt_or_eq with more | last
  · obtain ⟨payload, -⟩ := h.short more
    rw [State.bytesToIdle_of_payload payload]
    omega
  · obtain ⟨idle, -⟩ := h.ninth last
    simp [State.bytesToIdle, idle, last]

/-- Inside a frame no byte is for nothing: it arms an escape, which the next byte uses up, or it writes. -/
theorem stepByte_bytesToIdle_lt {s t : State} {b : Byte} (inFrame : s.st ≠ .idle) (h : stepByte s b = .next t) :
    t.bytesToIdle < s.bytesToIdle := by
  rcases stepByte_cases h with ⟨idle, -⟩ | ⟨idle, -⟩ | ⟨payload, -, inside, rfl⟩ | ⟨payload, -, hw⟩ | ⟨escape, hw⟩
  · exact absurd idle inFrame
  · exact absurd idle inFrame
  · have armed : (s.goto .escape).bytesToIdle = 2 * (9 - s.cur.val) - 1 := rfl
    rw [armed, State.bytesToIdle_of_payload payload]
    omega
  · have place := (State.write_wrote hw).bytesToIdle
    rw [State.bytesToIdle_of_payload payload]
    omega
  · have place := (State.write_wrote hw).bytesToIdle
    rw [State.bytesToIdle_of_escape escape]
    omega

/-- Any bytes, if there are enough of them, have a prefix that ends the frame in progress. -/
theorem runBytes_reaches_idle {bs : List Byte} {s : State} (cursor : s.CursorOk) (enough : s.bytesToIdle ≤ bs.length) :
    ∃ n ≤ bs.length, ∃ (t : State) (outs : List Output), runBytes s (bs.take n) = .next (t, outs) ∧ t.st = .idle := by
  induction bs generalizing s with
  | nil =>
    have idle : s.st = .idle := by
      by_contra inFrame
      exact (State.bytesToIdle_pos cursor inFrame).not_ge enough
    exact ⟨0, le_rfl, s, [], rfl, idle⟩
  | cons b bs ih =>
    by_cases idle : s.st = .idle
    · exact ⟨0, Nat.zero_le _, s, [], rfl, idle⟩
    · obtain ⟨u, step⟩ := stepByte_answers b cursor
      obtain ⟨legal, -⟩ := stepByte_inv cursor step
      have fewer := stepByte_bytesToIdle_lt idle step
      obtain ⟨n, bound, t, outs, run, ended⟩ := ih legal (Nat.le_of_lt_succ (fewer.trans_le enough))
      exact ⟨n + 1, Nat.succ_le_succ bound, t, _, runBytes_cons step run, ended⟩

/-- Settles O38: at most nine bytes are still to be written, each after at most one `ESC`, and in `Escape` the first `ESC`
has been taken. -/
theorem idleIsReachedWithinEighteenBytes : Obligations.IdleIsReachedWithinEighteenBytes := by
  intro s bs cursor
  refine ⟨fun length => ?_, fun escape length => ?_⟩
  · have enough : s.bytesToIdle ≤ bs.length := length ▸ s.bytesToIdle_le
    exact length ▸ runBytes_reaches_idle cursor enough
  · have enough : s.bytesToIdle ≤ bs.length := by
      rw [State.bytesToIdle_of_escape escape]
      omega
    exact length ▸ runBytes_reaches_idle cursor enough

end Sys2Proof.Machine


/-! # Reset and a repeated `START`

The cases of 70_reset_and_hazards.md that are about one input held or sent again: `rst` over several cycles (rule R151) and
`START` inside a frame it opened (rule R158). -/

namespace Sys2Proof.Machine

/-! ### Repeated reset -/

/-- What `RESET` leaves (rule R151). -/
def State.afterReset (s : State) : State := { s.goto .idle with cur := 0 }

theorem exec_reset (v : Bool) (s : State) : exec (.reset v) s = .next s.afterReset := rfl

theorem State.afterReset_output (s : State) : s.afterReset.output = ⟨none, none⟩ := rfl

theorem State.afterReset_afterReset (s : State) : s.afterReset.afterReset = s.afterReset := rfl

theorem stepCycle_afterReset (s : State) {c : CycleInput} (reset : c.rst = true) : stepCycle s c = .next s.afterReset :=
  stepCycle_reset s reset

/-- The first reset cycle resets, each further one finds the block reset already. -/
theorem runCycles_reset (s : State) {c : CycleInput} (reset : c.rst = true) (n : Nat) :
    runCycles s (List.replicate (n + 1) c) = .next (s.afterReset, List.replicate (n + 1) ⟨none, none⟩) := by
  induction n generalizing s with
  | zero => exact runCycles_cons (stepCycle_afterReset s reset) rfl
  | succ n ih =>
    have rest := ih s.afterReset
    rw [s.afterReset_afterReset] at rest
    rw [List.replicate_succ, List.replicate_succ (n := n + 1), ← s.afterReset_output]
    exact runCycles_cons (stepCycle_afterReset s reset) rest

/-- Settles O20: `RESET` repeats because it leaves a reset state as it is. -/
theorem resetReturnsToIdle : Obligations.ResetReturnsToIdle :=
  fun s v _ => ⟨exec_reset v s, stepCycle_afterReset s rfl, runCycles_reset s rfl⟩

/-! ### Unescaped frames -/

theorem flatMap_wire_plain (x : List Byte) : (x.map WireUnit.plain).flatMap WireUnit.wire = x := by
  simp [List.flatMap_map, WireUnit.wire]

theorem map_payload_plain (x : List Byte) : (x.map WireUnit.plain).map WireUnit.payload = x := by
  simp [Function.comp_def, WireUnit.payload]

theorem wellFormed_plain {x : List Byte} (noEsc : ∀ b ∈ x, b ≠ ESC) :
    ∀ u ∈ x.map WireUnit.plain, u.wellFormed = true := by
  simpa [WireUnit.wellFormed] using noEsc

/-- `START` and nine bytes other than `ESC` are received as the frame of these nine bytes, a further `START` among them or
not (40_frame_decoder.md rule R98). -/
theorem runBytes_plain {s : State} {x : List Byte} (idle : s.st = .idle) (nine : x.length = 9)
    (noEsc : ∀ b ∈ x, b ≠ ESC) :
    ∃ (t : State) (outs : List Output), runBytes s (START :: x) = .next (t, outs) ∧ t.st = .idle ∧
      frames outs = [t.buf] ∧ t.buf.toList = x ∧ events outs = (dispatch t.buf).toList := by
  obtain ⟨t, ended, -, buf, run⟩ :=
    exactFraming s (x.map .plain) idle ((List.length_map _).trans nine) (wellFormed_plain noEsc)
  rw [flatMap_wire_plain] at run
  exact ⟨t, _, run, ended, by simp, buf.trans (map_payload_plain x), by simp⟩

/-- Settles O45: the second `START` is the device byte of the frame, and it is not the device the block accepts. -/
theorem doubledStartIsDropped : Obligations.DoubledStartIsDropped := by
  intro s x idle eight noEsc
  have plain : ∀ b ∈ START :: x, b ≠ ESC := List.forall_mem_cons.mpr ⟨by decide, noEsc⟩
  obtain ⟨t, outs, run, ended, frame, buf, event⟩ := runBytes_plain idle (congrArg (· + 1) eight) plain
  have device : t.buf[0] = START := by
    have first : t.buf.toList[0]? = some START := by rw [buf]; rfl
    simpa using first
  have dropped : dispatch t.buf = none := dispatch_of_device (by rw [device]; decide)
  exact ⟨t, outs, run, ended, frame, buf, by rw [event, dropped]; rfl⟩

end Sys2Proof.Machine


/-! # The core over a schedule

The schedule is the model's convention (notes/assumptions/1.md). No cycle reads or changes the entries behind its own, so a
cycle-level run goes the same way whatever is scheduled, and the core, which takes one entry a step, follows it. -/

namespace Sys2Proof.Machine

/-- `s` with another schedule. -/
def State.withInputs (s : State) (cs : List CycleInput) : State := { s with inputs := cs }

/-! ### A cycle does not see the schedule -/

theorem State.write_withInputs {s t : State} {w : Byte} (cs : List CycleInput) (h : s.write w = .next t) :
    (s.withInputs cs).write w = .next (t.withInputs cs) := by
  rcases State.write_cases h with ⟨short, rfl⟩ | ⟨ninth, rfl⟩
  · exact State.write_short (s := s.withInputs cs) w short
  · exact State.write_ninth (s := s.withInputs cs) w ninth

theorem stepByte_withInputs {s t : State} {b : Byte} (cs : List CycleInput) (h : stepByte s b = .next t) :
    stepByte (s.withInputs cs) b = .next (t.withInputs cs) := by
  have st : (s.withInputs cs).st = s.st := rfl
  rw [stepByte_eq, st]
  rcases stepByte_cases h with ⟨idle, start, rfl⟩ | ⟨idle, skip, rfl⟩ | ⟨payload, esc, inside, rfl⟩ |
    ⟨payload, plain, written⟩ | ⟨escape, written⟩
  · simp only [idle, if_pos start]
    rfl
  · simp only [idle, if_neg skip]
    rfl
  · simp only [payload, if_pos esc]
    exact State.armEscape_inside (s := s.withInputs cs) inside
  · simp only [payload, if_neg plain]
    exact State.write_withInputs cs written
  · simp only [escape]
    exact State.write_withInputs cs written

theorem stepCycle_withInputs {s t : State} {c : CycleInput} (cs : List CycleInput) (h : stepCycle s c = .next t) :
    stepCycle (s.withInputs cs) c = .next (t.withInputs cs) := by
  rcases stepCycle_cases h with ⟨reset, rfl⟩ | ⟨running, noByte, rfl⟩ | ⟨running, byte, taken⟩
  · exact stepCycle_reset _ reset
  · exact stepCycle_hold _ running noByte
  · exact (stepCycle_byte _ running byte).trans (stepByte_withInputs cs taken)

/-! ### A step takes the first entry -/

/-- The step of the core is the cycle scheduled first, and it leaves the entries behind that one. -/
theorem step_withInputs_cons {s t : State} {c : CycleInput} (cs : List CycleInput) (h : stepCycle s c = .next t) :
    step (s.withInputs (c :: cs)) = .next (t.withInputs cs) :=
  (step_of_inputs rfl).trans (stepCycle_withInputs cs h)

/-- Settles O12, by induction on the cycles: each step of the core takes the cycle that the cycle-level run takes. -/
theorem coreRunFollowsSchedule : Obligations.CoreRunFollowsSchedule := by
  intro cs rest s t outs h
  induction cs generalizing s outs with
  | nil => cases h; rfl
  | cons c cs ih =>
    obtain ⟨u, outs', taken, run, rfl⟩ := runCycles_cases h
    exact (core_run_succ (step_withInputs_cons (cs ++ rest) taken)).trans (ih u outs' run)

end Sys2Proof.Machine
